-- ==== Sys2Proof/Word.lean ====
section
/-! DEFINITION. The widths of the block's data (rules R9, R13, R14): bytes, 16-bit words, 9-bit counters.
Bit 0 of every value is its least significant bit (R14). -/

namespace Sys2Proof

/-- A payload element, unit id, function code or operand: 8 bits (R9). -/
abbrev Byte := BitVec 8

/-- A command word, the checksum, the data of a response: 16 bits (R9, R90, R95). -/
abbrev Word := BitVec 16

/-- A position or length counter: 9 bits, unsigned (R24). -/
abbrev Count := BitVec 9

end Sys2Proof
end

