-- ==== Sys2Proof/Syntax.lean ====
section
/-! DEFINITION. The 19 commands of command set revision 1 (rules R2, R92), one constructor per row of the opcode table. -/

namespace Sys2Proof

/-- A command with its operand: a data byte `d` (format `B`) or a register number `r` (format `R`) (R91, R93). -/
inductive Instr where
  | nop
  | sreset
  | clrerr
  | rd (r : Byte)
  | crcInit
  | crcByte (d : Byte)
  | crcVerify
  | encStart
  | encUnit (d : Byte)
  | encFc (d : Byte)
  | encPush (d : Byte)
  | encBuild
  | encPop
  | encRewind
  | decStart
  | decPush (d : Byte)
  | decParse
  | decPop
  | decRewind
deriving DecidableEq, Repr

/-- The three formats of a command word; they differ only in what `IMM` means (R91). -/
inductive Format where
  | N
  | B
  | R
deriving DecidableEq, Repr

/-- The four command groups that are not reserved (R90). -/
inductive Group where
  | system
  | crcEngine
  | encoder
  | decoder
deriving DecidableEq, Repr

end Sys2Proof
end

