-- ==== Sys2Proof/WellFormed.lean ====
section
/-! DEFINITION. Which commands have an encoding (rules R91, R94): every operand byte is legal in format `B`; a register
number is legal up to `0x0F`. -/

namespace Sys2Proof

/-- The command is one the decoder can answer: `RD` takes a defined register number only (R34, R91, R94). -/
def Instr.wf : Instr → Bool
  | .nop => true
  | .sreset => true
  | .clrerr => true
  | .rd r => decide (r.toNat ≤ 0x0F)
  | .crcInit => true
  | .crcByte _ => true
  | .crcVerify => true
  | .encStart => true
  | .encUnit _ => true
  | .encFc _ => true
  | .encPush _ => true
  | .encBuild => true
  | .encPop => true
  | .encRewind => true
  | .decStart => true
  | .decPush _ => true
  | .decParse => true
  | .decPop => true
  | .decRewind => true

end Sys2Proof
end

