-- ==== Sys2Proof/Decode.lean ====
section
/-! DEFINITION. Command words: their fields, the decoder (total on all 65536 words), the encoder, and the opcode map
as the spec prints it (rules R90 to R94, R99, R100). -/

namespace Sys2Proof

/-- `GRP`, bits 15:12 (R90). -/
def wordGrp (w : Word) : BitVec 4 := w.extractLsb' 12 4

/-- `FN`, bits 11:8 (R90). -/
def wordFn (w : Word) : BitVec 4 := w.extractLsb' 8 4

/-- `IMM`, bits 7:0, used as it is: never extended with its sign, scaled or shifted (R90, R93). -/
def wordImm (w : Word) : Byte := w.extractLsb' 0 8

/-- Why a word is reserved: the classes of R99. -/
inductive ReservedClass where
  /-- `GRP` 4 to 15. -/
  | reservedGroup
  /-- A function number its group does not define. -/
  | reservedFunction
  /-- A format `N` word whose `IMM` is not zero. -/
  | operandNotZero
  /-- `RD` with a register number above `0x0F`. -/
  | undefinedRegister
deriving DecidableEq, Repr

/-- The decoder's verdict. `illegal` is no fault of the model: the block answers such a word as R99 says. -/
inductive Decoded where
  | command (i : Instr)
  | illegal (why : ReservedClass)
deriving DecidableEq, Repr

/-- Format `N`: `IMM` must be zero (R91). -/
def decodeN (i : Instr) (w : Word) : Decoded :=
  if wordImm w = 0 then .command i else .illegal .operandNotZero

/-- Format `B`: every `IMM` is a data byte (R91). -/
def decodeB (mk : Byte → Instr) (w : Word) : Decoded := .command (mk (wordImm w))

/-- Format `R`: `IMM` is a register number up to `0x0F` (R91, R94). -/
def decodeR (mk : Byte → Instr) (w : Word) : Decoded :=
  if (wordImm w).toNat ≤ 0x0F then .command (mk (wordImm w)) else .illegal .undefinedRegister

/-- The decoder (R92, R94). -/
def decode (w : Word) : Decoded :=
  match (wordGrp w).toNat, (wordFn w).toNat with
  | 0, 0 => decodeN .nop w
  | 0, 1 => decodeN .sreset w
  | 0, 2 => decodeN .clrerr w
  | 0, 3 => decodeR .rd w
  | 0, _ => .illegal .reservedFunction
  | 1, 0 => decodeN .crcInit w
  | 1, 1 => decodeB .crcByte w
  | 1, 2 => decodeN .crcVerify w
  | 1, _ => .illegal .reservedFunction
  | 2, 0 => decodeN .encStart w
  | 2, 1 => decodeB .encUnit w
  | 2, 2 => decodeB .encFc w
  | 2, 3 => decodeB .encPush w
  | 2, 4 => decodeN .encBuild w
  | 2, 5 => decodeN .encPop w
  | 2, 6 => decodeN .encRewind w
  | 2, _ => .illegal .reservedFunction
  | 3, 0 => decodeN .decStart w
  | 3, 1 => decodeB .decPush w
  | 3, 2 => decodeN .decParse w
  | 3, 3 => decodeN .decPop w
  | 3, 4 => decodeN .decRewind w
  | 3, _ => .illegal .reservedFunction
  | _, _ => .illegal .reservedGroup

/-- The decoder in the host's numbering: the instruction whose bits are `w`, every bit from `nbits` on zero. A command is
one word (R90), given to the decoder as it stands on the `cmd` port. -/
def decodeTableWord (nbits w : Nat) : Option Instr :=
  match decode (BitVec.ofNat 16 (w % 2 ^ nbits)) with
  | .command i => some i
  | .illegal _ => none

/-- A word from its three fields (R90). -/
def wordOf (g f : BitVec 4) (d : Byte) : Word := (g ++ f) ++ d

/-- The encoder: the word of each command (R92). -/
def encode : Instr → Word
  | .nop => wordOf 0 0 0
  | .sreset => wordOf 0 1 0
  | .clrerr => wordOf 0 2 0
  | .rd r => wordOf 0 3 r
  | .crcInit => wordOf 1 0 0
  | .crcByte d => wordOf 1 1 d
  | .crcVerify => wordOf 1 2 0
  | .encStart => wordOf 2 0 0
  | .encUnit d => wordOf 2 1 d
  | .encFc d => wordOf 2 2 d
  | .encPush d => wordOf 2 3 d
  | .encBuild => wordOf 2 4 0
  | .encPop => wordOf 2 5 0
  | .encRewind => wordOf 2 6 0
  | .decStart => wordOf 3 0 0
  | .decPush d => wordOf 3 1 d
  | .decParse => wordOf 3 2 0
  | .decPop => wordOf 3 3 0
  | .decRewind => wordOf 3 4 0

/-- The command's mnemonic (R92, R102). -/
def Instr.mnemonic : Instr → String
  | .nop => "NOP"
  | .sreset => "SRESET"
  | .clrerr => "CLRERR"
  | .rd _ => "RD"
  | .crcInit => "CRC.INIT"
  | .crcByte _ => "CRC.BYTE"
  | .crcVerify => "CRC.VERIFY"
  | .encStart => "ENC.START"
  | .encUnit _ => "ENC.UNIT"
  | .encFc _ => "ENC.FC"
  | .encPush _ => "ENC.PUSH"
  | .encBuild => "ENC.BUILD"
  | .encPop => "ENC.POP"
  | .encRewind => "ENC.REWIND"
  | .decStart => "DEC.START"
  | .decPush _ => "DEC.PUSH"
  | .decParse => "DEC.PARSE"
  | .decPop => "DEC.POP"
  | .decRewind => "DEC.REWIND"

/-- The command's operand byte; a command without one has `IMM` zero (R91). -/
def Instr.operandByte : Instr → Byte
  | .nop => 0
  | .sreset => 0
  | .clrerr => 0
  | .rd r => r
  | .crcInit => 0
  | .crcByte d => d
  | .crcVerify => 0
  | .encStart => 0
  | .encUnit d => d
  | .encFc d => d
  | .encPush d => d
  | .encBuild => 0
  | .encPop => 0
  | .encRewind => 0
  | .decStart => 0
  | .decPush d => d
  | .decParse => 0
  | .decPop => 0
  | .decRewind => 0

/-- The command's group (R90, R92). -/
def Instr.group : Instr → Group
  | .nop => .system
  | .sreset => .system
  | .clrerr => .system
  | .rd _ => .system
  | .crcInit => .crcEngine
  | .crcByte _ => .crcEngine
  | .crcVerify => .crcEngine
  | .encStart => .encoder
  | .encUnit _ => .encoder
  | .encFc _ => .encoder
  | .encPush _ => .encoder
  | .encBuild => .encoder
  | .encPop => .encoder
  | .encRewind => .encoder
  | .decStart => .decoder
  | .decPush _ => .decoder
  | .decParse => .decoder
  | .decPop => .decoder
  | .decRewind => .decoder

/-- One row of the opcode map of R92. -/
structure OpcodeRow where
  mnemonic : String
  format : Format
  matchBits : Word
  mask : Word
deriving DecidableEq, Repr

/-- The opcode map of R92, row by row as the spec prints it. The decoder does not read it: the two are written
separately, and a statement says that they agree. -/
def opcodeTable : List OpcodeRow :=
  [⟨"NOP", .N, 0x0000, 0xFFFF⟩, ⟨"SRESET", .N, 0x0100, 0xFFFF⟩, ⟨"CLRERR", .N, 0x0200, 0xFFFF⟩,
   ⟨"RD", .R, 0x0300, 0xFF00⟩, ⟨"CRC.INIT", .N, 0x1000, 0xFFFF⟩, ⟨"CRC.BYTE", .B, 0x1100, 0xFF00⟩,
   ⟨"CRC.VERIFY", .N, 0x1200, 0xFFFF⟩, ⟨"ENC.START", .N, 0x2000, 0xFFFF⟩, ⟨"ENC.UNIT", .B, 0x2100, 0xFF00⟩,
   ⟨"ENC.FC", .B, 0x2200, 0xFF00⟩, ⟨"ENC.PUSH", .B, 0x2300, 0xFF00⟩, ⟨"ENC.BUILD", .N, 0x2400, 0xFFFF⟩,
   ⟨"ENC.POP", .N, 0x2500, 0xFFFF⟩, ⟨"ENC.REWIND", .N, 0x2600, 0xFFFF⟩, ⟨"DEC.START", .N, 0x3000, 0xFFFF⟩,
   ⟨"DEC.PUSH", .B, 0x3100, 0xFF00⟩, ⟨"DEC.PARSE", .N, 0x3200, 0xFFFF⟩, ⟨"DEC.POP", .N, 0x3300, 0xFFFF⟩,
   ⟨"DEC.REWIND", .N, 0x3400, 0xFFFF⟩]

end Sys2Proof
end

