-- ==== Sys2Proof/Config.lean ====
section
/-! DEFINITION. What an implementation fixes (rule R7) and the values the spec leaves open (R38, R62, U2, U5).
The parameters are plain data, carried by the state and written by nothing. The free values are constants
without a body: nothing in Lean can evaluate them, so whatever is proved holds for every value of them. -/

namespace Sys2Proof.Config

/-- The two byte buffers (R36, R60). -/
inductive Buffer where
  | txpay
  | rxbuf
deriving DecidableEq, Repr

/-- The parameter `SHAPE` (R7, U2) as plain data: the table of R166, or replacement number `id`. -/
inductive ShapeParam where
  | default
  | replacement (id : Nat)
deriving DecidableEq, Repr

/-- Replacement number `id` for `SHAPE`: any total function of `(f, P)` alone (R166). A free value (log entry 4);
`Machine.shape` cuts it to the legal ones. -/
opaque replacementShape (id : Nat) (f : Byte) (P : List Byte) : Bool

/-- What index `i` of buffer `b` reads as before a `PUSH` has written it: unspecified, any value (R38, U5).
A free value (log entry 5). -/
opaque unwrittenByte (b : Buffer) (i : Nat) : Byte

/-- `txframe(i)` for an `i` outside the range R141 defines it for. A free value (log entry 6). -/
opaque undefinedFrameByte (i : Nat) : Byte

/-- The implementation parameters of R7. `MAX_PAYLOAD` has the legal range 0 to 506; `FRAME_MAX` is not independent
(`Machine.frameMax`). -/
structure Params where
  maxPayload : Fin 507
  shape : ShapeParam
deriving DecidableEq, Repr

/-- The defaults of R7: `MAX_PAYLOAD` 253 and the table of R166. -/
def Params.default : Params := { maxPayload := 253, shape := .default }

end Sys2Proof.Config
end

