-- ==== Sys2Proof/Machine/State.lean ====
section
/-! DEFINITION. The state of the block (rules R20 to R40), its value after reset (R38, R250), and the outcomes of a step
that are not a next state (none occurs: R12, R231). -/

namespace Sys2Proof.Machine

/-- The meaningful or once-written bytes of a buffer: (index, byte) pairs, indices strictly rising (R36). An index that is
not listed has not been written; what it reads as is `unlistedByte` (Ops.lean). -/
abbrev Memory := List Host.Cell

/-- The response to one command: `rsp_err`, 3 bits, and `rsp_data`, 16 bits (R95). -/
structure Response where
  err : BitVec 3
  data : Word
deriving DecidableEq, Repr

/-- What the host can do to the block at the command level (R11, R214, R251). -/
inductive HostMove where
  /-- Offer a command word on the command port (R90, R98). -/
  | command (w : Word)
  /-- Assert `rst` between two commands (R251). -/
  | rst
deriving DecidableEq, Repr

/-- The whole state. The fields from `crc` to `rxbuf` are the spec's, in the order of R20; `params`, `hostMoves` and `rsp`
are the model's own (log entries 1, 2, 3). -/
structure State where
  /-- The implementation parameters (R7): written by nothing. `CAP` (R32) is `MAX_PAYLOAD`, read from here. -/
  params : Config.Params
  /-- The running checksum (R22). -/
  crc : Word
  /-- The sticky error field, `STATUS[2:0]` (R30). -/
  err : BitVec 3
  /-- The unit id of the next request (R23). -/
  txunit : Byte
  /-- The function code of the next request (R23). -/
  txfc : Byte
  /-- Payload bytes pushed since `ENC.START`, saturating at `MAX_PAYLOAD + 1` (R24). -/
  txplen : Count
  /-- Length of the built frame, 0 when there is none (R24). -/
  txlen : Count
  /-- Index of the next frame byte `ENC.POP` returns (R24). -/
  txrd : Count
  /-- The checksum of the built frame, 0 when there is none (R25). -/
  txcrc : Word
  /-- A built frame exists; `STATUS[3]` (R26). -/
  txvalid : Bool
  /-- Received bytes pushed since `DEC.START`, saturating at `FRAME_MAX + 1` (R24). -/
  rxlen : Count
  /-- The unit id of the decoded frame (R27). -/
  rxunit : Byte
  /-- The function code of the decoded frame (R27). -/
  rxfc : Byte
  /-- The payload length of the decoded frame (R24). -/
  rxplen : Count
  /-- Index of the next payload byte `DEC.POP` returns (R24). -/
  rxrd : Count
  /-- The exception code of a decoded exception response (R27). -/
  excode : Byte
  /-- The original function code of a decoded exception response (R27). -/
  origfc : Byte
  /-- A decoded normal frame exists; `STATUS[4]` (R28). -/
  rxvalid : Bool
  /-- A decoded exception response exists; `STATUS[5]` (R28). -/
  rxexc : Bool
  /-- The staged payload bytes (R36). -/
  txpay : Memory
  /-- The received bytes (R36). -/
  rxbuf : Memory
  /-- The host's moves the block has not taken yet, the next one first: the command port and the `rst` pin (R97). -/
  hostMoves : List HostMove
  /-- The response ports after the last step: `some` when that step executed a command, which is when `rsp_valid` is high,
  `none` after a reset or an idle step (R95, R97, R98). -/
  rsp : Option Response
deriving DecidableEq, Repr

/-- The ways a step stops with a fault: there are none. `exec` is a total function (R12) and no error stops the block
(R231); no constructor, so none can be raised. Safe: the model never stops where the block goes on. -/
inductive Fault where
deriving DecidableEq, Repr

/-- The reasons the model gives no meaning. -/
inductive Refusal where
  /-- Raised by an arm of `exec` whose instruction has no meaning yet; no arm is left so, and nothing raises it. Safe: the
  model would stop where the block goes on. -/
  | notModelled (mnemonic : String)
deriving DecidableEq, Repr

/-- The reset state for given parameters (R38, R250): `CRC` is `0xFFFF`, every other register and flag 0, no buffer byte
written, no response on the ports, no host move waiting. -/
def State.resetWith (p : Config.Params) : State :=
  { params := p
    crc := 0xFFFF
    err := 0
    txunit := 0
    txfc := 0
    txplen := 0
    txlen := 0
    txrd := 0
    txcrc := 0
    txvalid := false
    rxlen := 0
    rxunit := 0
    rxfc := 0
    rxplen := 0
    rxrd := 0
    excode := 0
    origfc := 0
    rxvalid := false
    rxexc := false
    txpay := []
    rxbuf := []
    hostMoves := []
    rsp := none }

/-- The machine right after reset, with the default parameters of R7. -/
def State.reset : State := State.resetWith Config.Params.default

end Sys2Proof.Machine
end

