-- ==== Sys2Proof/Machine/Flags.lean ====
section
/-! DEFINITION. The limits a state's parameters give, the error codes, the derived flags and the `STATUS` view
(rules R7, R31 to R33, R220). -/

namespace Sys2Proof.Machine

/-- `MAX_PAYLOAD` (R7). -/
def maxPayload (s : State) : Nat := s.params.maxPayload.val

/-- `FRAME_MAX`, always `MAX_PAYLOAD + 4` (R7). -/
def frameMax (s : State) : Nat := maxPayload s + 4

/-- The error codes by name (R220). Code 7 is reserved and never produced. -/
inductive ErrCode where
  | ok
  | encoding
  | checksum
  | malformed
  | mbexc
  | empty
  | illegal
deriving DecidableEq, Repr

/-- The number of each error code (R220). -/
def ErrCode.code : ErrCode → BitVec 3
  | .ok => 0
  | .encoding => 1
  | .checksum => 2
  | .malformed => 3
  | .mbexc => 4
  | .empty => 5
  | .illegal => 6

/-- `ACK`: an exception response with code 5 (R33). -/
def ackFlag (s : State) : Bool := s.rxexc && s.excode == 5

/-- `TXOVF`: more than `MAX_PAYLOAD` payload bytes were pushed (R33). -/
def txovfFlag (s : State) : Bool := decide (maxPayload s < s.txplen.toNat)

/-- `RXOVF`: more than `FRAME_MAX` received bytes were pushed (R33). -/
def rxovfFlag (s : State) : Bool := decide (frameMax s < s.rxlen.toNat)

/-- `STATUS`, assembled when it is read; bits 15:9 read as 0 (R31). -/
def statusWord (s : State) : Word :=
  (0#7) ++ BitVec.ofBool (rxovfFlag s) ++ BitVec.ofBool (txovfFlag s) ++ BitVec.ofBool (ackFlag s)
    ++ BitVec.ofBool s.rxexc ++ BitVec.ofBool s.rxvalid ++ BitVec.ofBool s.txvalid ++ s.err

end Sys2Proof.Machine
end

