-- ==== Sys2Proof/Machine/Operands.lean ====
section
/-! DEFINITION. Operand forms: a data byte is used as it stands and zero-extended where 16 bits are needed (rule R93);
a register number names one of sixteen readable registers (R32, R34). -/

namespace Sys2Proof.Machine

/-- `zext_16` of a byte (R13, R93). -/
def zextByte (d : Byte) : Word := d.setWidth 16

/-- `zext_16` of a counter (R13, R96). -/
def zextCount (n : Count) : Word := n.setWidth 16

/-- The registers that have a number (R34). -/
inductive RegName where
  | status
  | crc
  | txunit
  | txfc
  | txplen
  | txlen
  | txrd
  | txcrc
  | rxlen
  | rxunit
  | rxfc
  | rxplen
  | rxrd
  | excode
  | origfc
  | cap
deriving DecidableEq, Repr

/-- The register a number names; `0x10` to `0xFF` name none (R34). -/
def RegName.ofNumber (r : Byte) : Option RegName :=
  match r.toNat with
  | 0x00 => some .status
  | 0x01 => some .crc
  | 0x02 => some .txunit
  | 0x03 => some .txfc
  | 0x04 => some .txplen
  | 0x05 => some .txlen
  | 0x06 => some .txrd
  | 0x07 => some .txcrc
  | 0x08 => some .rxlen
  | 0x09 => some .rxunit
  | 0x0A => some .rxfc
  | 0x0B => some .rxplen
  | 0x0C => some .rxrd
  | 0x0D => some .excode
  | 0x0E => some .origfc
  | 0x0F => some .cap
  | _ => none

/-- The number of each register (R34). -/
def RegName.number : RegName → Byte
  | .status => 0x00
  | .crc => 0x01
  | .txunit => 0x02
  | .txfc => 0x03
  | .txplen => 0x04
  | .txlen => 0x05
  | .txrd => 0x06
  | .txcrc => 0x07
  | .rxlen => 0x08
  | .rxunit => 0x09
  | .rxfc => 0x0A
  | .rxplen => 0x0B
  | .rxrd => 0x0C
  | .excode => 0x0D
  | .origfc => 0x0E
  | .cap => 0x0F

/-- `CAP`, 9 bits, hardwired to `MAX_PAYLOAD` (R32). -/
def capRegister (s : State) : Count := BitVec.ofNat 9 (maxPayload s)

/-- A register's value zero-extended to 16 bits; reading has no side effect (R21, R34, R70, R72). -/
def readRegister (s : State) : RegName → Word
  | .status => statusWord s
  | .crc => s.crc
  | .txunit => zextByte s.txunit
  | .txfc => zextByte s.txfc
  | .txplen => zextCount s.txplen
  | .txlen => zextCount s.txlen
  | .txrd => zextCount s.txrd
  | .txcrc => s.txcrc
  | .rxlen => zextCount s.rxlen
  | .rxunit => zextByte s.rxunit
  | .rxfc => zextByte s.rxfc
  | .rxplen => zextCount s.rxplen
  | .rxrd => zextCount s.rxrd
  | .excode => zextByte s.excode
  | .origfc => zextByte s.origfc
  | .cap => zextCount (capRegister s)

end Sys2Proof.Machine
end

