-- ==== Sys2Proof/Machine/Ops.lean ====
section
/-! DEFINITION. The named operations over the buffers and the registers: `MemRead` and `MemWrite` (rule R62), the two
invalidations (R142, R161), resetting the registers (R38, R191, R252), and answering a command with or without an error
(R95, R96, R224, R227). -/

namespace Sys2Proof.Machine

/-- The byte last written at index `i`, or `none` when nothing has written it (R62). -/
def Memory.lookup : Memory → Nat → Option Byte
  | [], _ => none
  | (a, v) :: m, i => if i = a then some v else Memory.lookup m i

/-- Replace byte `i` and no other (R62), keeping the indices strictly rising. -/
def Memory.store : Memory → Nat → Byte → Memory
  | [], i, v => [(i, v)]
  | (a, u) :: m, i, v =>
    if i < a then (i, v) :: (a, u) :: m
    else if i = a then (i, v) :: m
    else (a, u) :: Memory.store m i v

/-- The canonical form: indices strictly rising. (An unlisted index holds no value the model knows, so no entry can equal
what it reads as: log entry 5.) -/
def Memory.wf : Memory → Bool
  | [] => true
  | [_] => true
  | x :: y :: m => decide (x.1 < y.1) && Memory.wf (y :: m)

/-- Every listed index is below `n`: the index range of a buffer of `n` bytes (R36). -/
def Memory.within (n : Nat) (m : Memory) : Bool := m.all fun c => decide (c.1 < n)

/-- What an unlisted index reads as: any value (U5). -/
def unlistedByte (b : Config.Buffer) (i : Nat) : Byte := Config.unwrittenByte b i

/-- The contents of a buffer. -/
def bufferOf (b : Config.Buffer) (s : State) : Memory :=
  match b with
  | .txpay => s.txpay
  | .rxbuf => s.rxbuf

/-- The size of a buffer in bytes (R36, R62). -/
def bufferSize (b : Config.Buffer) (s : State) : Nat :=
  match b with
  | .txpay => maxPayload s
  | .rxbuf => frameMax s

/-- The length counter of a buffer (R62). -/
def bufferCounter (b : Config.Buffer) (s : State) : Nat :=
  match b with
  | .txpay => s.txplen.toNat
  | .rxbuf => s.rxlen.toNat

/-- How many bytes of a buffer are meaningful (R36). -/
def meaningful (b : Config.Buffer) (s : State) : Nat := min (bufferCounter b s) (bufferSize b s)

/-- `MemRead(buf, i)` (R62). -/
def memRead (b : Config.Buffer) (s : State) (i : Nat) : Byte :=
  (Memory.lookup (bufferOf b s) i).getD (unlistedByte b i)

/-- `MemWrite(buf, i, v)`: the contents of the buffer afterwards (R62). -/
def memWrite (b : Config.Buffer) (s : State) (i : Nat) (v : Byte) : Memory := Memory.store (bufferOf b s) i v

/-- The bytes of a buffer with index `a <= i < a + n`, in order (R13). -/
def readRange (b : Config.Buffer) (s : State) (a n : Nat) : List Byte :=
  (List.range' a n).map (memRead b s)

/-- `tx_invalidate`: discard the built frame; the staging is kept (R142). -/
def txInvalidate (s : State) : State :=
  { s with txvalid := false, txlen := 0, txrd := 0, txcrc := 0 }

/-- `rx_invalidate`: discard the decoded frame; the received bytes are kept (R161). -/
def rxInvalidate (s : State) : State :=
  { s with
    rxvalid := false, rxexc := false, rxunit := 0, rxfc := 0, rxplen := 0, rxrd := 0, excode := 0, origfc := 0 }

/-- Every register and flag takes its reset value; the buffers are not written and `CAP` is hardwired (R38, R191, R252). -/
def resetRegisters (s : State) : State :=
  { s with
    crc := 0xFFFF, err := 0
    txunit := 0, txfc := 0, txplen := 0, txlen := 0, txrd := 0, txcrc := 0, txvalid := false
    rxlen := 0, rxunit := 0, rxfc := 0, rxplen := 0, rxrd := 0, excode := 0, origfc := 0
    rxvalid := false, rxexc := false }

/-- The end of every command: the response, and the write of `ERR` that R224 makes after the command's own state writes.
No control is transferred and nothing is saved (R227), so there is nothing to return from (R228). -/
def respond (e : ErrCode) (data : Word) (s : State) : State :=
  { s with err := if e = .ok then s.err else e.code, rsp := some ⟨e.code, data⟩ }

/-- `rsp <- (OK, data)` (R13, R96). -/
def answer (data : Word) (s : State) : State := respond .ok data s

/-- `raise <Error>` with response data `data` (R13, R227). -/
def raise (e : ErrCode) (data : Word) (s : State) : State := respond e data s

end Sys2Proof.Machine
end

