-- ==== Sys2Proof/Machine/Frame.lean ====
section
/-! DEFINITION. Frames and replies: the frame layout (rule R140), the byte of the built frame (R141), the received sequence
(R160) and the reply-shape check (R166). -/

namespace Sys2Proof.Machine

/-- `frame(u, f, P)`: unit id, function code, payload, checksum low, checksum high (R140). -/
def frame (u f : Byte) (P : List Byte) : List Byte := withCrc (u :: f :: P)

/-- The staged payload `TXPAY[0 .. TXPLEN)` (R25, R36). -/
def stagedPayload (s : State) : List Byte := readRange .txpay s 0 s.txplen.toNat

/-- `txframe(i)`: byte `i` of the built frame; the block keeps no copy of it (R141). -/
def txframe (s : State) (i : Nat) : Byte :=
  if i = 0 then s.txunit
  else if i = 1 then s.txfc
  else if i < s.txplen.toNat + 2 then memRead .txpay s (i - 2)
  else if i = s.txplen.toNat + 2 then lowByte s.txcrc
  else if i = s.txplen.toNat + 3 then highByte s.txcrc
  else Config.undefinedFrameByte i

/-- The received sequence `RXBUF[0 .. RXLEN)` (R160). -/
def received (s : State) : List Byte := readRange .rxbuf s 0 s.rxlen.toNat

/-- The payload `RXBUF[2 .. RXLEN - 2)` of the received sequence (R160). -/
def receivedPayload (s : State) : List Byte := readRange .rxbuf s 2 (s.rxlen.toNat - 4)

/-- Bit 7 of a function code: the frame is an exception response (R167). -/
def exceptionBit (f : Byte) : Bool := f.getLsbD 7

/-- The default `SHAPE`: the table of R166, lengths only. -/
def defaultShape (f : Byte) (P : List Byte) : Bool :=
  if exceptionBit f then P.length == 1
  else if f = 0x03 then
    match P with
    | [] => false
    | count :: _ => P.length == 1 + count.toNat
  else if f = 0x06 ∨ f = 0x10 then P.length == 4
  else true

/-- `SHAPE(f, P)` for the parameter in force. A replacement is cut to what R166 calls legal: false for an exception
function code with an empty payload. -/
def shape (p : Config.ShapeParam) (f : Byte) (P : List Byte) : Bool :=
  match p with
  | .default => defaultShape f P
  | .replacement id => !(exceptionBit f && P.isEmpty) && Config.replacementShape id f P

/-- The original function code of an exception response: its high bit cleared (R167). -/
def originalFunction (f : Byte) : Byte := f &&& 0x7F

end Sys2Proof.Machine
end

