-- ==== Sys2Proof/Machine/CrcEngine.lean ====
section
/-! DEFINITION. The commands of the CRC Engine (rules R125 to R128). -/

namespace Sys2Proof.Machine

/-- `CRC.INIT` (R125). -/
def execCrcInit (s : State) : Host.Outcome State Fault Refusal :=
  .next (answer 0 { s with crc := 0xFFFF })

/-- `CRC.BYTE d` (R127): the response carries the new value. -/
def execCrcByte (d : Byte) (s : State) : Host.Outcome State Fault Refusal :=
  .next (answer (crcStep s.crc d) { s with crc := crcStep s.crc d })

/-- `CRC.VERIFY` (R128): a failed check is the answer 0, not an error; `CRC` is neither read nor written (R126). -/
def execCrcVerify (s : State) : Host.Outcome State Fault Refusal :=
  .next (answer (if s.rxlen.toNat ≤ frameMax s ∧ verify (received s) then 1 else 0) s)

end Sys2Proof.Machine
end

