-- ==== Sys2Proof/Machine/FrameDecoder.lean ====
section
/-! DEFINITION. The decode side of the Frame Codec (rules R162 to R170). -/

namespace Sys2Proof.Machine

/-- `DEC.START` (R162): the bytes of `RXBUF` are kept. -/
def execDecStart (s : State) : Host.Outcome State Fault Refusal :=
  .next (answer 0 (rxInvalidate { s with rxlen := 0 }))

/-- The new `RXLEN` of a push: one more, saturating at `FRAME_MAX + 1` (R24, R69, R163). -/
def pushedRxlen (s : State) : Count :=
  if s.rxlen.toNat ≤ frameMax s then s.rxlen + 1 else s.rxlen

/-- `RXBUF` after a push: the byte written at index `RXLEN`, or dropped because the buffer is full (R69, R163). -/
def pushedRxbuf (d : Byte) (s : State) : Memory :=
  if s.rxlen.toNat < frameMax s then memWrite .rxbuf s s.rxlen.toNat d else s.rxbuf

/-- `DEC.PUSH d` (R163): answers `OK` even when the byte is dropped. -/
def execDecPush (d : Byte) (s : State) : Host.Outcome State Fault Refusal :=
  .next (answer (zextCount (pushedRxlen s))
    (rxInvalidate { s with rxbuf := pushedRxbuf d s, rxlen := pushedRxlen s }))

/-- The decoded fields of a frame that passed the three checks (R164). -/
def takeFrame (s : State) : State :=
  { rxInvalidate s with
    rxunit := memRead .rxbuf s 0, rxfc := memRead .rxbuf s 1, rxplen := s.rxlen - 4 }

/-- `DEC.PARSE` (R164): the checks in the order length, checksum, reply shape, exception bit (R165, R226). The exception code
`P[0]` is `RXBUF[2]` (R160), and `SHAPE` makes sure that it exists (R166). -/
def execDecParse (s : State) : Host.Outcome State Fault Refusal :=
  if s.rxlen.toNat < 4 ∨ frameMax s < s.rxlen.toNat then
    .next (raise .malformed 0 (rxInvalidate s))
  else if ¬ verify (received s) then
    .next (raise .checksum 0 (rxInvalidate s))
  else if ¬ shape s.params.shape (memRead .rxbuf s 1) (receivedPayload s) then
    .next (raise .malformed 0 (rxInvalidate s))
  else if exceptionBit (memRead .rxbuf s 1) then
    .next (raise .mbexc (zextByte (memRead .rxbuf s 2))
      { takeFrame s with
        rxexc := true
        excode := memRead .rxbuf s 2
        origfc := originalFunction (memRead .rxbuf s 1) })
  else
    .next (answer (zextCount (s.rxlen - 4)) { takeFrame s with rxvalid := true })

/-- `DEC.POP` (R169). -/
def execDecPop (s : State) : Host.Outcome State Fault Refusal :=
  if (s.rxvalid ∨ s.rxexc) ∧ s.rxrd.toNat < s.rxplen.toNat then
    .next (answer (zextByte (memRead .rxbuf s (2 + s.rxrd.toNat))) { s with rxrd := s.rxrd + 1 })
  else
    .next (raise .empty 0 s)

/-- `DEC.REWIND` (R170). -/
def execDecRewind (s : State) : Host.Outcome State Fault Refusal :=
  .next (answer 0 { s with rxrd := 0 })

end Sys2Proof.Machine
end

