-- ==== Sys2Proof/Machine/FrameEncoder.lean ====
section
/-! DEFINITION. The encode side of the Frame Codec (rules R143 to R150). -/

namespace Sys2Proof.Machine

/-- `ENC.START` (R143): `TXUNIT`, `TXFC` and the bytes of `TXPAY` are kept. -/
def execEncStart (s : State) : Host.Outcome State Fault Refusal :=
  .next (answer 0 (txInvalidate { s with txplen := 0 }))

/-- `ENC.UNIT d` (R144): every value is accepted (R146). -/
def execEncUnit (d : Byte) (s : State) : Host.Outcome State Fault Refusal :=
  .next (answer 0 (txInvalidate { s with txunit := d }))

/-- `ENC.FC d` (R145): every value is accepted (R146). -/
def execEncFc (d : Byte) (s : State) : Host.Outcome State Fault Refusal :=
  .next (answer 0 (txInvalidate { s with txfc := d }))

/-- The new `TXPLEN` of a push: one more, saturating at `MAX_PAYLOAD + 1` (R24, R69, R147). -/
def pushedTxplen (s : State) : Count :=
  if s.txplen.toNat ≤ maxPayload s then s.txplen + 1 else s.txplen

/-- `TXPAY` after a push: the byte written at index `TXPLEN`, or dropped because the buffer is full (R69, R147). -/
def pushedTxpay (d : Byte) (s : State) : Memory :=
  if s.txplen.toNat < maxPayload s then memWrite .txpay s s.txplen.toNat d else s.txpay

/-- `ENC.PUSH d` (R147): answers `OK` even when the byte is dropped. -/
def execEncPush (d : Byte) (s : State) : Host.Outcome State Fault Refusal :=
  .next (answer (zextCount (pushedTxplen s))
    (txInvalidate { s with txpay := pushedTxpay d s, txplen := pushedTxplen s }))

/-- `ENC.BUILD` (R148): `encode_request`; the staging is kept. -/
def execEncBuild (s : State) : Host.Outcome State Fault Refusal :=
  if maxPayload s < s.txplen.toNat then
    .next (raise .encoding 0 (txInvalidate s))
  else
    .next (answer (zextCount (s.txplen + 4))
      { s with
        txcrc := crc16 (s.txunit :: s.txfc :: stagedPayload s)
        txlen := s.txplen + 4
        txrd := 0
        txvalid := true })

/-- `ENC.POP` (R149). -/
def execEncPop (s : State) : Host.Outcome State Fault Refusal :=
  if s.txvalid ∧ s.txrd.toNat < s.txlen.toNat then
    .next (answer (zextByte (txframe s s.txrd.toNat)) { s with txrd := s.txrd + 1 })
  else
    .next (raise .empty 0 s)

/-- `ENC.REWIND` (R150). -/
def execEncRewind (s : State) : Host.Outcome State Fault Refusal :=
  .next (answer 0 { s with txrd := 0 })

end Sys2Proof.Machine
end

