-- ==== Sys2Proof/Machine/System.lean ====
section
/-! DEFINITION. The system commands (rules R190 to R193) and the answer to a reserved word (R99). -/

namespace Sys2Proof.Machine

/-- `NOP` (R190). -/
def execNop (s : State) : Host.Outcome State Fault Refusal :=
  .next (answer 0 s)

/-- `SRESET` (R191). -/
def execSreset (s : State) : Host.Outcome State Fault Refusal :=
  .next (answer 0 (resetRegisters s))

/-- `CLRERR` (R192). -/
def execClrerr (s : State) : Host.Outcome State Fault Refusal :=
  .next (answer 0 { s with err := 0 })

/-- `RD r` (R193): the register as it stands before the command, or `ILLEGAL` for a number that names none. -/
def execRd (r : Byte) (s : State) : Host.Outcome State Fault Refusal :=
  match RegName.ofNumber r with
  | some n => .next (answer (readRegister s n) s)
  | none => .next (raise .illegal 0 s)

/-- The block's answer to a reserved word: `ILLEGAL`, data 0, and no state change but `ERR` (R99, R226). -/
def answerReserved (s : State) : State := raise .illegal 0 s

end Sys2Proof.Machine
end

