-- ==== Sys2Proof/Machine/Dispatch.lean ====
section
/-! DEFINITION. The meaning of each command, one arm per constructor (rule R92). -/

namespace Sys2Proof.Machine

def exec (i : Instr) (s : State) : Host.Outcome State Fault Refusal :=
  match i with
  | .nop => Sys2Proof.Machine.execNop s
  | .sreset => Sys2Proof.Machine.execSreset s
  | .clrerr => Sys2Proof.Machine.execClrerr s
  | .rd r => Sys2Proof.Machine.execRd r s
  | .crcInit => Sys2Proof.Machine.execCrcInit s
  | .crcByte d => Sys2Proof.Machine.execCrcByte d s
  | .crcVerify => Sys2Proof.Machine.execCrcVerify s
  | .encStart => Sys2Proof.Machine.execEncStart s
  | .encUnit d => Sys2Proof.Machine.execEncUnit d s
  | .encFc d => Sys2Proof.Machine.execEncFc d s
  | .encPush d => Sys2Proof.Machine.execEncPush d s
  | .encBuild => Sys2Proof.Machine.execEncBuild s
  | .encPop => Sys2Proof.Machine.execEncPop s
  | .encRewind => Sys2Proof.Machine.execEncRewind s
  | .decStart => Sys2Proof.Machine.execDecStart s
  | .decPush d => Sys2Proof.Machine.execDecPush d s
  | .decParse => Sys2Proof.Machine.execDecParse s
  | .decPop => Sys2Proof.Machine.execDecPop s
  | .decRewind => Sys2Proof.Machine.execDecRewind s

end Sys2Proof.Machine
end

