-- ==== Sys2Proof/Machine/Fetch.lean ====
section
/-! DEFINITION. How the block takes the host's next move (rules R10, R11, R78, R98, R251). There is no program counter and no
instruction fetch (R29): a command word comes from the command port when it is accepted and is not read again. -/

namespace Sys2Proof.Machine

/-- The host's next move, taken. -/
inductive Fetched where
  /-- The host offers nothing: the block is idle and keeps all its state (R11, R238). -/
  | idle (s : State)
  /-- The host asserted `rst`: `s` is the state after it (R251). -/
  | rst (s : State)
  /-- The word `w` was accepted; `s` is the state the command runs in. -/
  | command (w : Word) (s : State)
deriving DecidableEq, Repr

/-- `rst` at the command level: the registers take their reset values, the buffers keep their bytes, and the block makes no
response (R251, R252). -/
def resetByPin (s : State) : State := { resetRegisters s with rsp := none }

/-- Take the host's next move, if there is one (R98). -/
def fetch (s : State) : Fetched :=
  match s.hostMoves with
  | [] => .idle { s with rsp := none }
  | .rst :: rest => .rst (resetByPin { s with hostMoves := rest })
  | .command w :: rest => .command w { s with hostMoves := rest }

/-- The host offers one more word, before everything it was going to offer. -/
def offerFirst (w : Word) (s : State) : State :=
  { s with hostMoves := .command w :: s.hostMoves }

end Sys2Proof.Machine
end

