-- ==== Sys2Proof/Machine/Step.lean ====
section
/-! DEFINITION. One step of the machine: the host's next move, taken and executed (rules R10 to R12, R71, R75). -/

namespace Sys2Proof.Machine

/-- The spec's `exec : State x CommandWord -> State x Response` (R10), the response standing in the next state's `rsp`:
decode the word, then run the command or answer a reserved word (R94, R99). -/
def execWord (w : Word) (s : State) : Host.Outcome State Fault Refusal :=
  match decode w with
  | .command i => exec i s
  | .illegal _ => .next (answerReserved s)

/-- One step: idle, a reset, or one accepted command, executed atomically (R71). -/
def step (s : State) : Host.Outcome State Fault Refusal :=
  match fetch s with
  | .idle t => .next t
  | .rst t => .next t
  | .command w t => execWord w t

/-- `s` with the host offering the word of `nbits` bits `w` first, so that the very next step runs it. -/
def State.withFetchWord (s : State) (nbits w : Nat) : State :=
  offerFirst (BitVec.ofNat 16 (w % 2 ^ nbits)) s

end Sys2Proof.Machine
end

