-- ==== Sys2Proof/Machine/Assembler.lean ====
section
/-! DEFINITION. The assembler notation (rule R102): one command per line, a mnemonic and at most one operand, a comment
after `;`. It is notation only; nothing the block does depends on it. -/

namespace Sys2Proof.Machine

/-- The operand of a line: a byte or a register name (R102). -/
inductive AsmOperand where
  | byte (b : Byte)
  | reg (n : RegName)
deriving DecidableEq, Repr

/-- One line: a mnemonic and at most one operand (R102). -/
structure AsmCommand where
  mnemonic : String
  operand : Option AsmOperand
deriving DecidableEq, Repr

/-- The register names of R102. -/
def regOfName (name : String) : Option RegName :=
  if name = "STATUS" then some .status
  else if name = "CRC" then some .crc
  else if name = "TXUNIT" then some .txunit
  else if name = "TXFC" then some .txfc
  else if name = "TXPLEN" then some .txplen
  else if name = "TXLEN" then some .txlen
  else if name = "TXRD" then some .txrd
  else if name = "TXCRC" then some .txcrc
  else if name = "RXLEN" then some .rxlen
  else if name = "RXUNIT" then some .rxunit
  else if name = "RXFC" then some .rxfc
  else if name = "RXPLEN" then some .rxplen
  else if name = "RXRD" then some .rxrd
  else if name = "EXCODE" then some .excode
  else if name = "ORIGFC" then some .origfc
  else if name = "CAP" then some .cap
  else none

/-- Format `N` commands take no operand (R102). -/
def asmN (i : Instr) : Option AsmOperand → Option Instr
  | none => some i
  | some _ => none

/-- Format `B` commands take a byte (R102). -/
def asmB (mk : Byte → Instr) : Option AsmOperand → Option Instr
  | some (.byte b) => some (mk b)
  | some (.reg _) => none
  | none => none

/-- `RD` takes a register name, or a byte for the number itself (R102). -/
def asmR (mk : Byte → Instr) : Option AsmOperand → Option Instr
  | some (.byte b) => some (mk b)
  | some (.reg n) => some (mk n.number)
  | none => none

/-- The command a line stands for, if it is one (R102). -/
def assemble (c : AsmCommand) : Option Instr :=
  if c.mnemonic = "NOP" then asmN .nop c.operand
  else if c.mnemonic = "SRESET" then asmN .sreset c.operand
  else if c.mnemonic = "CLRERR" then asmN .clrerr c.operand
  else if c.mnemonic = "RD" then asmR .rd c.operand
  else if c.mnemonic = "CRC.INIT" then asmN .crcInit c.operand
  else if c.mnemonic = "CRC.BYTE" then asmB .crcByte c.operand
  else if c.mnemonic = "CRC.VERIFY" then asmN .crcVerify c.operand
  else if c.mnemonic = "ENC.START" then asmN .encStart c.operand
  else if c.mnemonic = "ENC.UNIT" then asmB .encUnit c.operand
  else if c.mnemonic = "ENC.FC" then asmB .encFc c.operand
  else if c.mnemonic = "ENC.PUSH" then asmB .encPush c.operand
  else if c.mnemonic = "ENC.BUILD" then asmN .encBuild c.operand
  else if c.mnemonic = "ENC.POP" then asmN .encPop c.operand
  else if c.mnemonic = "ENC.REWIND" then asmN .encRewind c.operand
  else if c.mnemonic = "DEC.START" then asmN .decStart c.operand
  else if c.mnemonic = "DEC.PUSH" then asmB .decPush c.operand
  else if c.mnemonic = "DEC.PARSE" then asmN .decParse c.operand
  else if c.mnemonic = "DEC.POP" then asmN .decPop c.operand
  else if c.mnemonic = "DEC.REWIND" then asmN .decRewind c.operand
  else none

/-- A command written back as a line; a register number is written as a byte. -/
def disassemble (i : Instr) : AsmCommand :=
  { mnemonic := i.mnemonic
    operand :=
      match i with
      | .rd r => some (.byte r)
      | .crcByte d => some (.byte d)
      | .encUnit d => some (.byte d)
      | .encFc d => some (.byte d)
      | .encPush d => some (.byte d)
      | .decPush d => some (.byte d)
      | .nop => none
      | .sreset => none
      | .clrerr => none
      | .crcInit => none
      | .crcVerify => none
      | .encStart => none
      | .encBuild => none
      | .encPop => none
      | .encRewind => none
      | .decStart => none
      | .decParse => none
      | .decPop => none
      | .decRewind => none }

/-- The value of a decimal digit. -/
def decDigit (c : Char) : Option Nat :=
  if 48 ≤ c.toNat ∧ c.toNat ≤ 57 then some (c.toNat - 48) else none

/-- The value of a hexadecimal digit, in either case (log entry 13). -/
def hexDigit (c : Char) : Option Nat :=
  if 48 ≤ c.toNat ∧ c.toNat ≤ 57 then some (c.toNat - 48)
  else if 65 ≤ c.toNat ∧ c.toNat ≤ 70 then some (c.toNat - 55)
  else if 97 ≤ c.toNat ∧ c.toNat ≤ 102 then some (c.toNat - 87)
  else none

/-- The value of a list of decimal digits read after the value `acc`. -/
def decimalFrom (acc : Nat) : List Char → Option Nat
  | [] => some acc
  | c :: cs =>
    match decDigit c with
    | some v => decimalFrom (10 * acc + v) cs
    | none => none

/-- A number as a byte, if it is one. -/
def byteOfNat (n : Nat) : Option Byte := if n ≤ 255 then some (BitVec.ofNat 8 n) else none

/-- `byte ::= decimal 0..255 | 0x00..0xFF` (R102): two digits after `0x`. -/
def lexByte : List Char → Option Byte
  | [] => none
  | ['0', 'x', a, b] =>
    match hexDigit a, hexDigit b with
    | some h, some l => byteOfNat (16 * h + l)
    | _, _ => none
  | c :: cs =>
    match decimalFrom 0 (c :: cs) with
    | some n => byteOfNat n
    | none => none

/-- `operand ::= byte | regname` (R102). -/
def lexOperand (t : List Char) : Option AsmOperand :=
  match lexByte t with
  | some b => some (.byte b)
  | none => (regOfName (String.ofList t)).map .reg

/-- The tokens of a line: runs of characters between blanks. `cur` holds the current run, last character first. -/
def tokensFrom (cur : List Char) : List Char → List (List Char)
  | [] => if cur.isEmpty then [] else [cur.reverse]
  | c :: cs =>
    if c = ' ' ∨ c = '\t' then
      if cur.isEmpty then tokensFrom [] cs else cur.reverse :: tokensFrom [] cs
    else tokensFrom (c :: cur) cs

/-- One line of source text: the comment is dropped, then a mnemonic and at most one operand are read (R102). -/
def lexLine (line : List Char) : Option AsmCommand :=
  match tokensFrom [] (line.takeWhile fun c => c != ';') with
  | [m] => some { mnemonic := String.ofList m, operand := none }
  | [m, t] => (lexOperand t).map fun o => { mnemonic := String.ofList m, operand := some o }
  | _ => none

/-- The command of one line of source text. -/
def assembleLine (line : List Char) : Option Instr := (lexLine line).bind assemble

end Sys2Proof.Machine
end

