-- ==== Sys2Proof/Machine/Pseudo.lean ====
section
/-! DEFINITION. The pseudo-commands (rule R103): fixed sequences of commands, which the block never sees as such. -/

namespace Sys2Proof.Machine

/-- The nine pseudo-commands of R103. The two drains take the number of pops, which the host knows from the response of
`ENC.BUILD` or `DEC.PARSE` (log entry 12). -/
inductive Pseudo where
  | crcBytes (bs : List Byte)
  | crcCompute (bs : List Byte)
  | encPayload (bs : List Byte)
  | encRequest (u f : Byte) (bs : List Byte)
  | encDrain (txlen : Nat)
  | decBytes (bs : List Byte)
  | decResponse (bs : List Byte)
  | crcCheck (bs : List Byte)
  | decDrain (rxplen : Nat)
deriving DecidableEq, Repr

/-- The expansion of each pseudo-command (R103). -/
def expand : Pseudo → List Instr
  | .crcBytes bs => bs.map .crcByte
  | .crcCompute bs => .crcInit :: bs.map .crcByte ++ [.rd 0x01]
  | .encPayload bs => bs.map .encPush
  | .encRequest u f bs => .encStart :: .encUnit u :: .encFc f :: bs.map .encPush ++ [.encBuild]
  | .encDrain txlen => .encRewind :: List.replicate txlen .encPop
  | .decBytes bs => bs.map .decPush
  | .decResponse bs => .decStart :: bs.map .decPush ++ [.decParse]
  | .crcCheck bs => .decStart :: bs.map .decPush ++ [.crcVerify]
  | .decDrain rxplen => .decRewind :: List.replicate rxplen .decPop

end Sys2Proof.Machine
end

