-- ==== Sys2Proof/Safety.lean ====
section
/-! DEFINITION. The terms claims use: the invariant of rule R39 and the history its item 8 speaks of, the two sides of the state and what a host can observe of
it (R35, R36, R40), and runs as sequences of commands with their responses (R10, R264). -/

namespace Sys2Proof.Machine

/-- What R39 item 2 says of a state with a built frame. -/
structure BuiltFrame (s : State) : Prop where
  txplen : s.txplen.toNat ≤ maxPayload s
  txlen : s.txlen.toNat = s.txplen.toNat + 4
  txcrc : s.txcrc = crc16 (s.txunit :: s.txfc :: stagedPayload s)
  txrd : s.txrd.toNat ≤ s.txlen.toNat

/-- What R39 items 6 and 7 say of a state with a decoded frame of either kind. -/
structure DecodedFrame (s : State) : Prop where
  four_le : 4 ≤ s.rxlen.toNat
  le_frameMax : s.rxlen.toNat ≤ frameMax s
  rxplen : s.rxplen.toNat = s.rxlen.toNat - 4
  rxunit : s.rxunit = memRead .rxbuf s 0
  rxfc : s.rxfc = memRead .rxbuf s 1
  rxrd : s.rxrd.toNat ≤ s.rxplen.toNat
  verifies : verify (received s) = true
  shaped : shape s.params.shape s.rxfc (receivedPayload s) = true

/-- The invariant of a state alone: R39 items 1 to 7, the index ranges of R36, the canonical form of the buffers, and R220's
"code 7 is never produced". Item 8 is here as far as one state shows it (every meaningful byte has been written); the whole
of it speaks of earlier commands and is `PushedSinceZero`. -/
structure BlockInv (s : State) : Prop where
  txplen_le : s.txplen.toNat ≤ maxPayload s + 1
  rxlen_le : s.rxlen.toNat ≤ frameMax s + 1
  built : s.txvalid = true → BuiltFrame s
  notBuilt : s.txvalid = false → s.txlen = 0 ∧ s.txrd = 0 ∧ s.txcrc = 0
  notBoth : ¬ (s.rxvalid = true ∧ s.rxexc = true)
  notDecoded : s.rxvalid = false → s.rxexc = false →
    s.rxunit = 0 ∧ s.rxfc = 0 ∧ s.excode = 0 ∧ s.origfc = 0 ∧ s.rxplen = 0 ∧ s.rxrd = 0
  normal : s.rxvalid = true →
    DecodedFrame s ∧ exceptionBit s.rxfc = false ∧ s.excode = 0 ∧ s.origfc = 0
  exceptional : s.rxexc = true →
    DecodedFrame s ∧ exceptionBit s.rxfc = true ∧ s.excode = memRead .rxbuf s 2 ∧ s.origfc = s.rxfc &&& 0x7F ∧
      (s.params.shape = .default → s.rxlen = 5 ∧ s.rxplen = 1)
  written : ∀ b i, i < meaningful b s → (Memory.lookup (bufferOf b s) i).isSome = true
  canonical : ∀ b, Memory.wf (bufferOf b s) = true
  inRange : ∀ b, Memory.within (bufferSize b s) (bufferOf b s) = true
  err_ne_reserved : s.err ≠ 7
  rsp_ne_reserved : ∀ r, s.rsp = some r → r.err ≠ 7

/-- The byte a command pushes into a buffer, if it pushes one (R60, R147, R163). -/
def pushedBy (b : Config.Buffer) : Instr → Option Byte
  | .nop => none
  | .sreset => none
  | .clrerr => none
  | .rd _ => none
  | .crcInit => none
  | .crcByte _ => none
  | .crcVerify => none
  | .encStart => none
  | .encUnit _ => none
  | .encFc _ => none
  | .encPush d => if b = .txpay then some d else none
  | .encBuild => none
  | .encPop => none
  | .encRewind => none
  | .decStart => none
  | .decPush d => if b = .rxbuf then some d else none
  | .decParse => none
  | .decPop => none
  | .decRewind => none

/-- The byte a step from `s` pushes into a buffer, if the host's next move is a push into it. -/
def pushedByStep (b : Config.Buffer) (s : State) : Option Byte :=
  match s.hostMoves with
  | [] => none
  | .rst :: _ => none
  | .command w :: _ =>
    match decode w with
    | .command i => pushedBy b i
    | .illegal _ => none

/-- The history R39 item 8 speaks of: for each buffer, the bytes of the pushes since its counter was last 0, oldest first. It
stands beside the state and is no part of it. -/
structure PushLog where
  txpay : List Byte
  rxbuf : List Byte
deriving DecidableEq, Repr

/-- The history of one buffer. -/
def PushLog.of (l : PushLog) : Config.Buffer → List Byte
  | .txpay => l.txpay
  | .rxbuf => l.rxbuf

/-- One buffer's history after a step from `s` to `t`: it begins again where the counter is 0, and a push adds its byte,
dropped or not. -/
def logAfter (b : Config.Buffer) (log : List Byte) (s t : State) : List Byte :=
  if bufferCounter b t = 0 then [] else log ++ (pushedByStep b s).toList

/-- The histories after a step from `s` to `t`. -/
def PushLog.next (l : PushLog) (s t : State) : PushLog :=
  { txpay := logAfter .txpay l.txpay s t, rxbuf := logAfter .rxbuf l.rxbuf s t }

/-- R39 item 8 for one buffer, with R24's meaning of its counter: the counter is the number of pushes since it was last 0,
saturating, and byte `i` of the meaningful range was written by the `i`-th of those pushes. -/
structure PushedSinceZero (b : Config.Buffer) (log : List Byte) (s : State) : Prop where
  counter : bufferCounter b s = min log.length (bufferSize b s + 1)
  byPush : ∀ i, i < meaningful b s → ∃ d, log[i]? = some d ∧ Memory.lookup (bufferOf b s) i = some d

/-- R39 whole: items 1 to 7 of the state, and item 8 of the state and its history. -/
structure LoggedInv (l : PushLog) (s : State) : Prop where
  block : BlockInv s
  item8 : ∀ b, PushedSinceZero b (l.of b) s

/-- `n` steps, with the histories kept beside the state. `none` would mean that some step gave no next state. -/
def runLogged : Nat → State → PushLog → Option (State × PushLog)
  | 0, s, l => some (s, l)
  | n + 1, s, l =>
    match step s with
    | .next t => runLogged n t (l.next s t)
    | .fault _ => none
    | .refused _ => none

/-- The state of the encode side (R35). -/
structure EncodeSide where
  txunit : Byte
  txfc : Byte
  txplen : Count
  txlen : Count
  txrd : Count
  txcrc : Word
  txvalid : Bool
  txpay : Memory
deriving DecidableEq, Repr

/-- The encode side of a state. -/
def encodeSide (s : State) : EncodeSide :=
  { txunit := s.txunit, txfc := s.txfc, txplen := s.txplen, txlen := s.txlen, txrd := s.txrd, txcrc := s.txcrc
    txvalid := s.txvalid, txpay := s.txpay }

/-- The decoded fields: the last column of R35. -/
structure DecodedFields where
  rxunit : Byte
  rxfc : Byte
  rxplen : Count
  rxrd : Count
  excode : Byte
  origfc : Byte
  rxvalid : Bool
  rxexc : Bool
deriving DecidableEq, Repr

/-- The decoded fields of a state. -/
def decodedFields (s : State) : DecodedFields :=
  { rxunit := s.rxunit, rxfc := s.rxfc, rxplen := s.rxplen, rxrd := s.rxrd, excode := s.excode, origfc := s.origfc
    rxvalid := s.rxvalid, rxexc := s.rxexc }

/-- The state of the decode side (R35). -/
structure DecodeSide where
  rxlen : Count
  rxbuf : Memory
  fields : DecodedFields
deriving DecidableEq, Repr

/-- The decode side of a state. -/
def decodeSide (s : State) : DecodeSide :=
  { rxlen := s.rxlen, rxbuf := s.rxbuf, fields := decodedFields s }

/-- Two states a host cannot tell apart (R36, R40): everything is the same but buffer bytes at or beyond the meaningful
range. -/
structure SameToTheHost (s t : State) : Prop where
  registers : { t with txpay := s.txpay, rxbuf := s.rxbuf } = s
  meaningfulBytes : ∀ b i, i < meaningful b s → memRead b t i = memRead b s i

/-- Run a list of commands through `exec`, collecting the responses (R10, R264). `none` would mean that some command gave no
next state or no response. -/
def runInstrs : List Instr → State → Option (State × List Response)
  | [], s => some (s, [])
  | i :: is, s =>
    match exec i s with
    | .next t =>
      match t.rsp, runInstrs is t with
      | some r, some (u, rs) => some (u, r :: rs)
      | _, _ => none
    | .fault _ => none
    | .refused _ => none

/-- Run a list of command words, each decoded when it is accepted (R10, R264). -/
def runWords : List Word → State → Option (State × List Response)
  | [], s => some (s, [])
  | w :: ws, s =>
    match execWord w s with
    | .next t =>
      match t.rsp, runWords ws t with
      | some r, some (u, rs) => some (u, r :: rs)
      | _, _ => none
    | .fault _ => none
    | .refused _ => none

/-- The sequence `t` with bit `k` of byte `i` inverted (R132). -/
def flipBit (t : List Byte) (i : Nat) (k : Fin 8) : List Byte :=
  t.modify i fun b => b ^^^ (1#8 <<< k.val)

end Sys2Proof.Machine
end

