-- ==== Sys2Proof/Certificates/Slice0/Obligations.lean ====
section
/-! DEFINITION. The statements for the provers. Each docstring says which rule of the spec a statement formalises. Counters and
lengths are read with `toNat`; a response is written as its error code and its data (R95, R220). -/

open Sys2Proof Sys2Proof.Machine

/-! ### Encoding (rules R90 to R94, R99 to R103) -/

/-- The decoder reads back what the encoder writes, for every command and every operand its encoding admits (R91 to R94). -/
def Obligations.DecodeOfEncodeIsTheCommand : Prop :=
  ∀ i : Instr, i.wf = true → decode (encode i) = .command i

/-- Each word has one meaning: a word that decodes to a command is that command's word, and the command is well formed
(R92, R94). -/
def Obligations.EncodeOfDecodeIsTheWord : Prop :=
  ∀ (w : Word) (i : Instr), decode w = .command i → encode i = w ∧ i.wf = true

/-- R92 and R94: the decoder answers exactly what the procedure of R94 answers over the opcode map of R92, and no word matches
two rows of the map. -/
def Obligations.DecoderFollowsTheOpcodeMap : Prop :=
  (∀ (w : Word) (i : Instr),
    decode w = .command i ↔
      ∃ row ∈ opcodeTable, w &&& row.mask = row.matchBits ∧ (row.format = .R → (wordImm w).toNat ≤ 0x0F) ∧
        i.mnemonic = row.mnemonic ∧ i.operandByte = wordImm w) ∧
  (∀ (w : Word), ∀ row₁ ∈ opcodeTable, ∀ row₂ ∈ opcodeTable,
    w &&& row₁.mask = row₁.matchBits → w &&& row₂.mask = row₂.matchBits → row₁ = row₂)

/-- R99: the reserved words are exactly the listed classes, there are 64227 of them, and each is answered `ILLEGAL` with data 0
and no state change but `ERR`. -/
def Obligations.ReservedWordsAreAnsweredIllegal : Prop :=
  (∀ w : Word, (∃ why, decode w = .illegal why) ↔
    0x4000 ≤ w.toNat ∨
    (0x0400 ≤ w.toNat ∧ w.toNat ≤ 0x0FFF) ∨
    (0x1300 ≤ w.toNat ∧ w.toNat ≤ 0x1FFF) ∨
    (0x2700 ≤ w.toNat ∧ w.toNat ≤ 0x2FFF) ∨
    (0x3500 ≤ w.toNat ∧ w.toNat ≤ 0x3FFF) ∨
    (w.toNat / 256 ∈ [0x00, 0x01, 0x02, 0x10, 0x12, 0x20, 0x24, 0x25, 0x26, 0x30, 0x32, 0x33, 0x34] ∧
      w.toNat % 256 ≠ 0) ∨
    (0x0310 ≤ w.toNat ∧ w.toNat ≤ 0x03FF)) ∧
  ((List.range 65536).filter fun n => (decodeTableWord 16 n).isNone).length = 64227 ∧
  (∀ (w : Word) (why : ReservedClass) (s : State), decode w = .illegal why →
    execWord w s = .next { s with err := 6, rsp := some { err := 6, data := 0 } })

/-- A few words written out from the encoding tables of R90 to R92 decode to the commands they stand for. -/
def Obligations.WrittenWordsDecodeToTheirCommands : Prop :=
  decode 0b0000000000000000#16 = .command .nop ∧
  decode 0b0000001100001111#16 = .command (.rd 0x0F) ∧
  decode 0b0001000111111111#16 = .command (.crcByte 0xFF) ∧
  decode 0b0010001100001010#16 = .command (.encPush 0x0A) ∧
  decode 0b0010010000000000#16 = .command .encBuild ∧
  decode 0b0011000111000101#16 = .command (.decPush 0xC5) ∧
  decode 0b0011001000000000#16 = .command .decParse ∧
  decode 0b0010010000000001#16 = .illegal .operandNotZero

/-- R102: a command written as a line assembles to the command, and `RD` accepts each register's name for its number. -/
def Obligations.AssemblingALineGivesTheCommand : Prop :=
  (∀ i : Instr, assemble (disassemble i) = some i) ∧
  (∀ n : RegName, assemble { mnemonic := "RD", operand := some (.reg n) } = some (.rd n.number) ∧
    RegName.ofNumber n.number = some n)

/-! ### The step (rules R10 to R12, R71, R78, R95, R251, R264) -/

/-- What one step does: nothing when the host offers nothing, a reset when it asserts `rst`, and otherwise exactly `exec` of the
command the offered word decodes to, or the answer to a reserved word. The list of host moves is the model's
(log entry 2). -/
def Obligations.StepTakesTheHostsNextMove : Prop :=
  (∀ s : State, s.hostMoves = [] → step s = .next { s with rsp := none }) ∧
  (∀ (s : State) (rest : List HostMove), s.hostMoves = .rst :: rest →
    step s = .next { State.resetWith s.params with txpay := s.txpay, rxbuf := s.rxbuf, hostMoves := rest }) ∧
  (∀ (s : State) (w : Word) (rest : List HostMove) (i : Instr), s.hostMoves = .command w :: rest →
    decode w = .command i → step s = exec i { s with hostMoves := rest }) ∧
  (∀ (s : State) (w : Word) (rest : List HostMove) (why : ReservedClass), s.hostMoves = .command w :: rest →
    decode w = .illegal why →
    step s = .next { s with hostMoves := rest, err := 6, rsp := some { err := 6, data := 0 } })

/-- The word of a well-formed command, placed where the step fetches, is the command the next step runs, in the state it was
placed in. -/
def Obligations.PlacedWordRunsNext : Prop :=
  ∀ (s : State) (i : Instr), i.wf = true → step (s.withFetchWord 16 (encode i).toNat) = exec i s

/-- R12 and R95: `exec` is total; every accepted word, in every state, gives one next state with one response and takes nothing else
from the host; nothing but an accepted word gives a response. -/
def Obligations.EveryWordIsAnsweredOnce : Prop :=
  (∀ (w : Word) (s : State), ∃ t r, execWord w s = .next t ∧ t.rsp = some r ∧ t.hostMoves = s.hostMoves) ∧
  (∀ s : State, ∃ t, step s = .next t) ∧
  (∀ (s t : State) (r : Response), step s = .next t → t.rsp = some r →
    ∃ w rest, s.hostMoves = .command w :: rest ∧ execWord w { s with hostMoves := rest } = .next t)

/-- Sending well-formed commands as words runs the commands (R10, R75). -/
def Obligations.RunOfWordsIsRunOfCommands : Prop :=
  ∀ (is : List Instr) (s : State), (∀ i ∈ is, i.wf = true) → runWords (is.map encode) s = runInstrs is s

/-! ### Reset and the system commands (rules R38, R190 to R193, R250 to R253) -/

/-- R38 and R250: the value of every register and flag after reset, for all legal parameters, and after `SRESET` in any state; no
buffer byte is meaningful. -/
def Obligations.ResetLeavesTheListedValues : Prop :=
  ∀ s : State, ((∃ p : Config.Params, s = State.resetWith p) ∨ ∃ s₀, exec .sreset s₀ = .next s) →
    s.crc = 0xFFFF ∧ s.err = 0 ∧ s.txunit = 0 ∧ s.txfc = 0 ∧ s.txplen = 0 ∧ s.txlen = 0 ∧ s.txrd = 0 ∧
    s.txcrc = 0 ∧ s.txvalid = false ∧ s.rxlen = 0 ∧ s.rxplen = 0 ∧ s.rxrd = 0 ∧ s.rxunit = 0 ∧ s.rxfc = 0 ∧
    s.excode = 0 ∧ s.origfc = 0 ∧ s.rxvalid = false ∧ s.rxexc = false ∧ statusWord s = 0 ∧
    (capRegister s).toNat = s.params.maxPayload.val ∧ (∀ b, meaningful b s = 0)

/-- R191 and R252: `SRESET` and `rst` give the reset state with the buffers unwritten; they differ only in that `SRESET` is
answered `OK`. -/
def Obligations.SresetAndRstGiveTheResetState : Prop :=
  decode 0x0100 = .command .sreset ∧
  (∀ s : State, exec .sreset s =
    .next { State.resetWith s.params with
      txpay := s.txpay, rxbuf := s.rxbuf, hostMoves := s.hostMoves, rsp := some { err := 0, data := 0 } }) ∧
  (∀ (s : State) (rest : List HostMove), s.hostMoves = .rst :: rest → step s =
    .next { State.resetWith s.params with txpay := s.txpay, rxbuf := s.rxbuf, hostMoves := rest, rsp := none })

/-- R190: `NOP` answers `OK` with data 0 and changes no state, `ERR` included. -/
def Obligations.NopChangesNothing : Prop :=
  decode 0x0000 = .command .nop ∧ ∀ s : State, exec .nop s = .next { s with rsp := some { err := 0, data := 0 } }

/-- R192: `CLRERR` clears `ERR` and changes nothing else. -/
def Obligations.ClrerrClearsErrOnly : Prop :=
  decode 0x0200 = .command .clrerr ∧
  ∀ s : State, exec .clrerr s = .next { s with err := 0, rsp := some { err := 0, data := 0 } }

/-- R193, with the numbers of R34: `RD r` answers register number `r` zero-extended and changes nothing; a number above `0x0F` is
answered `ILLEGAL`. -/
def Obligations.RdAnswersTheNumberedRegister : Prop :=
  (∀ r : Byte, r.toNat ≤ 0x0F → decode (0x0300 ||| r.setWidth 16) = .command (.rd r)) ∧
  (∀ (s : State) (r : Byte), r.toNat ≤ 0x0F →
    exec (.rd r) s = .next { s with rsp := some { err := 0, data :=
      ([statusWord s, s.crc, s.txunit.setWidth 16, s.txfc.setWidth 16, s.txplen.setWidth 16, s.txlen.setWidth 16,
        s.txrd.setWidth 16, s.txcrc, s.rxlen.setWidth 16, s.rxunit.setWidth 16, s.rxfc.setWidth 16,
        s.rxplen.setWidth 16, s.rxrd.setWidth 16, s.excode.setWidth 16, s.origfc.setWidth 16,
        BitVec.ofNat 16 s.params.maxPayload.val] : List Word).getD r.toNat 0 } }) ∧
  (∀ (s : State) (r : Byte), 0x0F < r.toNat →
    exec (.rd r) s = .next { s with err := 6, rsp := some { err := 6, data := 0 } })

/-- R31 and R33: every bit of `STATUS`, the reserved ones included, and the derived flags; in a state that meets the invariant
the overflow flags mark exactly the saturation values. -/
def Obligations.StatusBitsAreTheListedFields : Prop :=
  (∀ s : State,
    (statusWord s).extractLsb' 0 3 = s.err ∧
    (statusWord s).getLsbD 3 = s.txvalid ∧
    (statusWord s).getLsbD 4 = s.rxvalid ∧
    (statusWord s).getLsbD 5 = s.rxexc ∧
    ((statusWord s).getLsbD 6 = true ↔ s.rxexc = true ∧ s.excode = 5) ∧
    ((statusWord s).getLsbD 7 = true ↔ s.params.maxPayload.val < s.txplen.toNat) ∧
    ((statusWord s).getLsbD 8 = true ↔ s.params.maxPayload.val + 4 < s.rxlen.toNat) ∧
    (statusWord s).extractLsb' 9 7 = 0) ∧
  (∀ s : State, BlockInv s →
    ((statusWord s).getLsbD 7 = true ↔ s.txplen.toNat = maxPayload s + 1) ∧
    ((statusWord s).getLsbD 8 = true ↔ s.rxlen.toNat = frameMax s + 1))

/-- R253: what the commands answer straight after reset, for every legal `MAX_PAYLOAD`. -/
def Obligations.StraightAfterResetNothingNeedsSettingUp : Prop :=
  ∀ (p : Config.Params) (s : State), s = State.resetWith p →
    (∀ d, exec (.crcByte d) s = .next { s with crc := crc16 [d], rsp := some { err := 0, data := crc16 [d] } }) ∧
    (∀ d, ∃ t, exec (.encPush d) s = .next t ∧ t.txplen = 1 ∧ t.rsp = some { err := 0, data := 1 }) ∧
    (∀ d, ∃ t, exec (.decPush d) s = .next t ∧ t.rxlen = 1 ∧ t.rsp = some { err := 0, data := 1 }) ∧
    (∃ t, runInstrs (.encBuild :: List.replicate 4 .encPop) s = some (t,
      [{ err := 0, data := 4 }, { err := 0, data := 0x00 }, { err := 0, data := 0x00 }, { err := 0, data := 0x01 },
       { err := 0, data := 0xB0 }])) ∧
    exec .encPop s = .next { s with err := 5, rsp := some { err := 5, data := 0 } } ∧
    exec .decPop s = .next { s with err := 5, rsp := some { err := 5, data := 0 } } ∧
    exec .decParse s = .next { s with err := 3, rsp := some { err := 3, data := 0 } } ∧
    exec .crcVerify s = .next { s with rsp := some { err := 0, data := 0 } }

/-! ### The CRC Engine (rules R120 to R132, R210) -/

/-- R120 and R121: the byte meets the low 8 bits, eight passes test bit 0, shift right and apply `0xA001`; a sequence starts from
`0xFFFF` and takes its bytes in index order. -/
def Obligations.ChecksumIsTheReflectedCrc : Prop :=
  (∀ (c : Word) (d : Byte), crcStep c d =
    (fun x : Word => if x.getLsbD 0 = true then (x >>> 1) ^^^ 0xA001 else x >>> 1)^[8] (c ^^^ d.setWidth 16)) ∧
  crc16 [] = 0xFFFF ∧ ∀ (s : List Byte) (d : Byte), crc16 (s ++ [d]) = crcStep (crc16 s) d

/-- R122: the table form is the same function, for every register and byte, and the 256 values of the table are the ones the spec
prints. -/
def Obligations.TableFormIsTheSameFunction : Prop :=
  (∀ (c : Word) (d : Byte), crcStep c d = (c >>> 8) ^^^ crcTable.getD ((c ^^^ d.setWidth 16).toNat % 256) 0) ∧
  (∀ (c : Word) (d : Byte), crcStepByTable c d = crcStep c d) ∧
  crcTable.length = 256

/-- R125: `CRC.INIT` loads `0xFFFF` and changes nothing else. -/
def Obligations.CrcInitLoadsTheInitialValue : Prop :=
  decode 0x1000 = .command .crcInit ∧
  ∀ s : State, exec .crcInit s = .next { s with crc := 0xFFFF, rsp := some { err := 0, data := 0 } }

/-- R127: `CRC.BYTE d` takes one byte into `CRC`, answers the new value, and changes nothing else, for every `d`. -/
def Obligations.CrcByteTakesOneByte : Prop :=
  (∀ d : Byte, decode (0x1100 ||| d.setWidth 16) = .command (.crcByte d)) ∧
  (∀ (d : Byte) (s : State), exec (.crcByte d) s =
    .next { s with crc := crcStep s.crc d, rsp := some { err := 0, data := crcStep s.crc d } }) ∧
  crcStep 0xFFFF 0x00 = 0x40BF ∧ crcStep 0xFFFF 0x01 = 0x807E

/-- R128: `CRC.VERIFY` answers whether the received bytes end in their checksum and changes no state; fewer than two bytes and an
overflowed buffer answer 0. -/
def Obligations.CrcVerifyAnswersTheCheck : Prop :=
  decode 0x1200 = .command .crcVerify ∧
  (∀ s : State, s.rxlen.toNat ≤ frameMax s → verify (readRange .rxbuf s 0 s.rxlen.toNat) = true →
    exec .crcVerify s = .next { s with rsp := some { err := 0, data := 1 } }) ∧
  (∀ s : State, (frameMax s < s.rxlen.toNat ∨ verify (readRange .rxbuf s 0 s.rxlen.toNat) = false) →
    exec .crcVerify s = .next { s with rsp := some { err := 0, data := 0 } }) ∧
  (∀ s : State, s.rxlen.toNat < 2 → exec .crcVerify s = .next { s with rsp := some { err := 0, data := 0 } })

/-- R210: `CRC.INIT`, one `CRC.BYTE` per byte in order, then `RD CRC`, from any state, answers `crc16` of the bytes and leaves it
in `CRC`; each `CRC.BYTE` answers the running value; nothing else changes. -/
def Obligations.StreamingComputeAnswersCrc16 : Prop :=
  ∀ (bs : List Byte) (s : State), ∃ rs,
    runInstrs (expand (.crcCompute bs)) s =
      some ({ s with crc := crc16 bs, rsp := some { err := 0, data := crc16 bs } }, rs) ∧
    rs.getLast? = some { err := 0, data := crc16 bs } ∧
    ∀ k, k < bs.length → rs[k + 1]? = some { err := 0, data := crc16 (bs.take (k + 1)) }

/-- R129: every sequence followed by its checksum verifies; on the block, so does every such sequence that fits `RXBUF`. -/
def Obligations.ChecksumRoundTrips : Prop :=
  (∀ bs : List Byte, verify (withCrc bs) = true) ∧
  (∀ (bs : List Byte) (s : State), bs.length ≤ frameMax s - 2 →
    ∃ t rs, runInstrs (expand (.crcCheck (withCrc bs))) s = some (t, rs) ∧
      rs.getLast? = some { err := 0, data := 1 })

/-- R130 and R131: the checksum of a sequence of at least two bytes is zero exactly when the sequence ends in its own checksum. -/
def Obligations.ResidueIsZeroExactlyWhenVerified : Prop :=
  (∀ s : List Byte, crc16 (withCrc s) = 0) ∧
  (∀ t : List Byte, 2 ≤ t.length → (crc16 t = 0 ↔ verify t = true))

/-- R132: inverting exactly one bit anywhere in a sequence with its checksum makes the check fail. -/
def Obligations.OneInvertedBitIsDetected : Prop :=
  ∀ (s : List Byte) (i : Nat) (k : Fin 8), i < (withCrc s).length → verify (flipBit (withCrc s) i k) = false

/-! ### The encode side (rules R140 to R152) -/

/-- R143: `ENC.START` empties the payload, discards the built frame and keeps `TXUNIT`, `TXFC` and the bytes of `TXPAY`; only it,
`SRESET` and reset lower `TXPLEN`. -/
def Obligations.EncStartBeginsANewPayload : Prop :=
  decode 0x2000 = .command .encStart ∧
  (∀ s : State, exec .encStart s =
    .next { s with
      txplen := 0, txvalid := false, txlen := 0, txrd := 0, txcrc := 0, rsp := some { err := 0, data := 0 } }) ∧
  (∀ (i : Instr) (s t : State), exec i s = .next t → t.txplen.toNat < s.txplen.toNat →
    i = .encStart ∨ i = .sreset)

/-- R144 and R145: `ENC.UNIT d` and `ENC.FC d` accept every `d`, write their register, and discard the built frame. -/
def Obligations.EncUnitAndEncFcSetTheirRegister : Prop :=
  (∀ d : Byte, decode (0x2100 ||| d.setWidth 16) = .command (.encUnit d)) ∧
  (∀ d : Byte, decode (0x2200 ||| d.setWidth 16) = .command (.encFc d)) ∧
  (∀ (d : Byte) (s : State), exec (.encUnit d) s =
    .next { s with
      txunit := d, txvalid := false, txlen := 0, txrd := 0, txcrc := 0, rsp := some { err := 0, data := 0 } }) ∧
  (∀ (d : Byte) (s : State), exec (.encFc d) s =
    .next { s with
      txfc := d, txvalid := false, txlen := 0, txrd := 0, txcrc := 0, rsp := some { err := 0, data := 0 } })

/-- R147: `ENC.PUSH d` stores `d` at index `TXPLEN` and counts it; with `TXPAY` full the byte is dropped and the count saturates at
`MAX_PAYLOAD + 1`. In each case the built frame is discarded, the answer is `OK` with the new `TXPLEN`, every other byte of both
buffers reads as before, and nothing else changes. -/
def Obligations.EncPushAppendsOrSaturates : Prop :=
  (∀ d : Byte, decode (0x2300 ||| d.setWidth 16) = .command (.encPush d)) ∧
  (∀ (d : Byte) (s : State), s.txplen.toNat < maxPayload s → ∃ t,
    exec (.encPush d) s = .next t ∧
    t = { s with
      txplen := s.txplen + 1, txpay := t.txpay, txvalid := false, txlen := 0, txrd := 0, txcrc := 0
      rsp := some { err := 0, data := BitVec.ofNat 16 (s.txplen.toNat + 1) } } ∧
    t.txplen.toNat = s.txplen.toNat + 1 ∧
    memRead .txpay t s.txplen.toNat = d ∧
    (∀ j, j ≠ s.txplen.toNat → memRead .txpay t j = memRead .txpay s j)) ∧
  (∀ (d : Byte) (s : State), s.txplen.toNat = maxPayload s →
    exec (.encPush d) s = .next { s with
      txplen := BitVec.ofNat 9 (maxPayload s + 1), txvalid := false, txlen := 0, txrd := 0, txcrc := 0
      rsp := some { err := 0, data := BitVec.ofNat 16 (maxPayload s + 1) } }) ∧
  (∀ (d : Byte) (s : State), maxPayload s < s.txplen.toNat →
    exec (.encPush d) s = .next { s with
      txvalid := false, txlen := 0, txrd := 0, txcrc := 0
      rsp := some { err := 0, data := BitVec.ofNat 16 s.txplen.toNat } })

/-- R148: `ENC.BUILD` answers `ENCODING` and discards the built frame exactly when more than `MAX_PAYLOAD` bytes were pushed;
otherwise it makes the frame of the staged arguments. The staging and `CRC` are kept, and repeating the command gives the same
again. -/
def Obligations.EncBuildMakesTheFrameOfTheStaging : Prop :=
  decode 0x2400 = .command .encBuild ∧
  (∀ s : State, maxPayload s < s.txplen.toNat → exec .encBuild s =
    .next { s with
      txvalid := false, txlen := 0, txrd := 0, txcrc := 0, err := 1, rsp := some { err := 1, data := 0 } }) ∧
  (∀ s : State, s.txplen.toNat ≤ maxPayload s → exec .encBuild s =
    .next { s with
      txcrc := crc16 ([s.txunit, s.txfc] ++ readRange .txpay s 0 s.txplen.toNat)
      txlen := BitVec.ofNat 9 (s.txplen.toNat + 4), txrd := 0, txvalid := true
      rsp := some { err := 0, data := BitVec.ofNat 16 (s.txplen.toNat + 4) } }) ∧
  (∀ s t : State, exec .encBuild s = .next t → exec .encBuild t = .next t)

/-- R149: `ENC.POP` answers the next byte of the built frame and moves `TXRD` on by one; with no built frame, or at its end, it
answers `EMPTY` and changes nothing but `ERR`. -/
def Obligations.EncPopAnswersTheNextFrameByte : Prop :=
  decode 0x2500 = .command .encPop ∧
  (∀ s : State, s.txvalid = true → s.txrd.toNat < s.txlen.toNat → ∃ t,
    exec .encPop s = .next t ∧
    t = { s with txrd := t.txrd, rsp := some { err := 0, data := (txframe s s.txrd.toNat).setWidth 16 } } ∧
    t.txrd.toNat = s.txrd.toNat + 1) ∧
  (∀ s : State, (s.txvalid = false ∨ s.txlen.toNat ≤ s.txrd.toNat) →
    exec .encPop s = .next { s with err := 5, rsp := some { err := 5, data := 0 } })

/-- R150: `ENC.REWIND` puts `TXRD` back to 0 and changes nothing else, with or without a built frame. -/
def Obligations.EncRewindReturnsToTheFirstByte : Prop :=
  decode 0x2600 = .command .encRewind ∧
  ∀ s : State, exec .encRewind s = .next { s with txrd := 0, rsp := some { err := 0, data := 0 } }

/-- R140, R141 and R152: the layout of a frame; each byte of the built frame; while `TXVALID` is 1 the built frame is the frame of the
staged arguments, and every frame verifies with residue zero. -/
def Obligations.BuiltFrameIsTheFrameOfTheStaging : Prop :=
  (∀ (u f : Byte) (P : List Byte), frame u f P =
    [u, f] ++ P ++ [(crc16 ([u, f] ++ P)).extractLsb' 0 8, (crc16 ([u, f] ++ P)).extractLsb' 8 8]) ∧
  (∀ s : State, s.txplen.toNat ≤ maxPayload s →
    txframe s 0 = s.txunit ∧ txframe s 1 = s.txfc ∧
    (∀ i, 2 ≤ i → i < s.txplen.toNat + 2 → txframe s i = memRead .txpay s (i - 2)) ∧
    txframe s (s.txplen.toNat + 2) = s.txcrc.extractLsb' 0 8 ∧
    txframe s (s.txplen.toNat + 3) = s.txcrc.extractLsb' 8 8) ∧
  (∀ s : State, BlockInv s → s.txvalid = true →
    (List.range s.txlen.toNat).map (txframe s) = frame s.txunit s.txfc (readRange .txpay s 0 s.txplen.toNat)) ∧
  (∀ (u f : Byte) (P : List Byte), verify (frame u f P) = true ∧ crc16 (frame u f P) = 0)

/-- R151: from any state, `ENC.REQUEST u, f, P` answers `OK` with the frame's length and `ENC.DRAIN` then answers exactly the bytes of
`frame(u, f, P)`, if `P` is at most `MAX_PAYLOAD` bytes long; if it is longer the request answers `ENCODING` and every pop
answers `EMPTY`. -/
def Obligations.EncodeRequestReadsBackAsTheFrame : Prop :=
  ∀ (u f : Byte) (P : List Byte) (s : State),
    (P.length ≤ maxPayload s → ∃ t rs t' rs',
      runInstrs (expand (.encRequest u f P)) s = some (t, rs) ∧
      rs.getLast? = some { err := 0, data := BitVec.ofNat 16 (P.length + 4) } ∧
      runInstrs (expand (.encDrain (P.length + 4))) t = some (t', rs') ∧
      rs' = { err := 0, data := 0 } :: (frame u f P).map fun b => { err := 0, data := b.setWidth 16 }) ∧
    (maxPayload s < P.length → ∃ t rs,
      runInstrs (expand (.encRequest u f P)) s = some (t, rs) ∧
      rs.getLast? = some { err := 1, data := 0 } ∧ t.txvalid = false ∧
      exec .encPop t = .next { t with err := 5, rsp := some { err := 5, data := 0 } })

/-! ### The decode side (rules R160 to R174) -/

/-- R162: `DEC.START` empties the received sequence, discards the decoded frame and keeps the bytes of `RXBUF`; only it, `SRESET` and
reset lower `RXLEN`. -/
def Obligations.DecStartBeginsANewSequence : Prop :=
  decode 0x3000 = .command .decStart ∧
  (∀ s : State, exec .decStart s =
    .next { s with
      rxlen := 0, rxvalid := false, rxexc := false, rxunit := 0, rxfc := 0, rxplen := 0, rxrd := 0, excode := 0
      origfc := 0, rsp := some { err := 0, data := 0 } }) ∧
  (∀ (i : Instr) (s t : State), exec i s = .next t → t.rxlen.toNat < s.rxlen.toNat →
    i = .decStart ∨ i = .sreset)

/-- R163: `DEC.PUSH d` stores `d` at index `RXLEN` and counts it; with `RXBUF` full the byte is dropped and the count saturates at
`FRAME_MAX + 1`. In each case the decoded frame is discarded, the answer is `OK` with the new `RXLEN`, every other byte of both
buffers reads as before, and nothing else changes. -/
def Obligations.DecPushAppendsOrSaturates : Prop :=
  (∀ d : Byte, decode (0x3100 ||| d.setWidth 16) = .command (.decPush d)) ∧
  (∀ (d : Byte) (s : State), s.rxlen.toNat < frameMax s → ∃ t,
    exec (.decPush d) s = .next t ∧
    t = { s with
      rxlen := s.rxlen + 1, rxbuf := t.rxbuf, rxvalid := false, rxexc := false, rxunit := 0, rxfc := 0, rxplen := 0
      rxrd := 0, excode := 0, origfc := 0
      rsp := some { err := 0, data := BitVec.ofNat 16 (s.rxlen.toNat + 1) } } ∧
    t.rxlen.toNat = s.rxlen.toNat + 1 ∧
    memRead .rxbuf t s.rxlen.toNat = d ∧
    (∀ j, j ≠ s.rxlen.toNat → memRead .rxbuf t j = memRead .rxbuf s j)) ∧
  (∀ (d : Byte) (s : State), s.rxlen.toNat = frameMax s →
    exec (.decPush d) s = .next { s with
      rxlen := BitVec.ofNat 9 (frameMax s + 1), rxvalid := false, rxexc := false, rxunit := 0, rxfc := 0
      rxplen := 0, rxrd := 0, excode := 0, origfc := 0
      rsp := some { err := 0, data := BitVec.ofNat 16 (frameMax s + 1) } }) ∧
  (∀ (d : Byte) (s : State), frameMax s < s.rxlen.toNat →
    exec (.decPush d) s = .next { s with
      rxvalid := false, rxexc := false, rxunit := 0, rxfc := 0, rxplen := 0, rxrd := 0, excode := 0, origfc := 0
      rsp := some { err := 0, data := BitVec.ofNat 16 s.rxlen.toNat } })

/-- R164 and R165: `DEC.PARSE` checks the length, then the checksum, then the reply shape, then the exception bit, and writes exactly
the decoded fields each outcome names; `RXLEN`, both buffers and `CRC` are kept, and repeating the command gives the same
again. -/
def Obligations.DecParseChecksInOrder : Prop :=
  decode 0x3200 = .command .decParse ∧
  (∀ (s : State) (B P : List Byte) (u f : Byte),
    B = readRange .rxbuf s 0 s.rxlen.toNat → P = (B.drop 2).take (s.rxlen.toNat - 4) →
    u = memRead .rxbuf s 0 → f = memRead .rxbuf s 1 →
    ((s.rxlen.toNat < 4 ∨ frameMax s < s.rxlen.toNat) → exec .decParse s =
      .next { s with
        rxvalid := false, rxexc := false, rxunit := 0, rxfc := 0, rxplen := 0, rxrd := 0, excode := 0, origfc := 0
        err := 3, rsp := some { err := 3, data := 0 } }) ∧
    (4 ≤ s.rxlen.toNat → s.rxlen.toNat ≤ frameMax s → verify B = false → exec .decParse s =
      .next { s with
        rxvalid := false, rxexc := false, rxunit := 0, rxfc := 0, rxplen := 0, rxrd := 0, excode := 0, origfc := 0
        err := 2, rsp := some { err := 2, data := 0 } }) ∧
    (4 ≤ s.rxlen.toNat → s.rxlen.toNat ≤ frameMax s → verify B = true → shape s.params.shape f P = false →
      exec .decParse s = .next { s with
        rxvalid := false, rxexc := false, rxunit := 0, rxfc := 0, rxplen := 0, rxrd := 0, excode := 0, origfc := 0
        err := 3, rsp := some { err := 3, data := 0 } }) ∧
    (4 ≤ s.rxlen.toNat → s.rxlen.toNat ≤ frameMax s → verify B = true → shape s.params.shape f P = true →
      f.getLsbD 7 = true → ∃ c, P.head? = some c ∧ exec .decParse s =
        .next { s with
          rxvalid := false, rxexc := true, rxunit := u, rxfc := f
          rxplen := BitVec.ofNat 9 (s.rxlen.toNat - 4), rxrd := 0, excode := c, origfc := f &&& 0x7F
          err := 4, rsp := some { err := 4, data := c.setWidth 16 } }) ∧
    (4 ≤ s.rxlen.toNat → s.rxlen.toNat ≤ frameMax s → verify B = true → shape s.params.shape f P = true →
      f.getLsbD 7 = false → exec .decParse s =
        .next { s with
          rxvalid := true, rxexc := false, rxunit := u, rxfc := f
          rxplen := BitVec.ofNat 9 (s.rxlen.toNat - 4), rxrd := 0, excode := 0, origfc := 0
          rsp := some { err := 0, data := BitVec.ofNat 16 (s.rxlen.toNat - 4) } })) ∧
  (∀ s t : State, exec .decParse s = .next t → exec .decParse t = .next t)

/-- R169: `DEC.POP` answers the next payload byte of the decoded frame and moves `RXRD` on by one; with no decoded frame, or at its
end, it answers `EMPTY` and changes nothing but `ERR`. -/
def Obligations.DecPopAnswersTheNextPayloadByte : Prop :=
  decode 0x3300 = .command .decPop ∧
  (∀ s : State, (s.rxvalid = true ∨ s.rxexc = true) → s.rxrd.toNat < s.rxplen.toNat → ∃ t,
    exec .decPop s = .next t ∧
    t = { s with
      rxrd := t.rxrd, rsp := some { err := 0, data := (memRead .rxbuf s (2 + s.rxrd.toNat)).setWidth 16 } } ∧
    t.rxrd.toNat = s.rxrd.toNat + 1) ∧
  (∀ s : State, ((s.rxvalid = false ∧ s.rxexc = false) ∨ s.rxplen.toNat ≤ s.rxrd.toNat) →
    exec .decPop s = .next { s with err := 5, rsp := some { err := 5, data := 0 } })

/-- R170: `DEC.REWIND` puts `RXRD` back to 0 and changes nothing else, with or without a decoded frame. -/
def Obligations.DecRewindReturnsToTheFirstByte : Prop :=
  decode 0x3400 = .command .decRewind ∧
  ∀ s : State, exec .decRewind s = .next { s with rxrd := 0, rsp := some { err := 0, data := 0 } }

/-- R166: the default `SHAPE` is the table of reply layouts, and every `SHAPE` in force is false for an exception function code with
an empty payload. -/
def Obligations.DefaultShapeIsTheTableOfReplyLayouts : Prop :=
  (∀ (f : Byte) (P : List Byte), shape .default f P = true ↔
    (f.getLsbD 7 = true ∧ P.length = 1) ∨
    (f = 0x03 ∧ ∃ c, P.head? = some c ∧ P.length = 1 + c.toNat) ∨
    (f = 0x06 ∧ P.length = 4) ∨ (f = 0x10 ∧ P.length = 4) ∨
    (f.getLsbD 7 = false ∧ f ≠ 0x03 ∧ f ≠ 0x06 ∧ f ≠ 0x10)) ∧
  (∀ (p : Config.ShapeParam) (f : Byte), f.getLsbD 7 = true → shape p f [] = false)

/-- R172: pushing the bytes of `frame(u, f, P)` after `DEC.START` and parsing recovers the fields, and `DEC.DRAIN` then answers `P`, for
every `u`, `f`, `P` that fits, has the reply shape, and has bit 7 of `f` clear. -/
def Obligations.FrameRoundTripsThroughTheDecoder : Prop :=
  ∀ (u f : Byte) (P : List Byte) (s : State), P.length ≤ maxPayload s → f.getLsbD 7 = false →
    shape s.params.shape f P = true → ∃ t rs t' rs',
      runInstrs (expand (.decResponse (frame u f P))) s = some (t, rs) ∧
      rs.getLast? = some { err := 0, data := BitVec.ofNat 16 P.length } ∧
      t.rxvalid = true ∧ t.rxunit = u ∧ t.rxfc = f ∧ t.rxplen.toNat = P.length ∧
      runInstrs (expand (.decDrain P.length)) t = some (t', rs') ∧
      rs' = { err := 0, data := 0 } :: P.map fun b => { err := 0, data := b.setWidth 16 }

/-- R173: a frame pushed with exactly one bit inverted, anywhere, is answered `CHECKSUM`; so is every other sequence of a legal length
that does not carry a matching checksum. -/
def Obligations.CorruptedFramesAreAnsweredChecksum : Prop :=
  (∀ (u f : Byte) (P : List Byte) (s : State) (i : Nat) (k : Fin 8), P.length ≤ maxPayload s → i < P.length + 4 →
    ∃ t rs, runInstrs (expand (.decResponse (flipBit (frame u f P) i k))) s = some (t, rs) ∧
      rs.getLast? = some { err := 2, data := 0 } ∧ t.rxvalid = false ∧ t.rxexc = false) ∧
  (∀ (B : List Byte) (s : State), 4 ≤ B.length → B.length ≤ frameMax s → verify B = false →
    ∃ t rs, runInstrs (expand (.decResponse B)) s = some (t, rs) ∧
      rs.getLast? = some { err := 2, data := 0 } ∧ t.rxvalid = false ∧ t.rxexc = false)

/-- R168 and R174: under the default `SHAPE` a one-byte reply with bit 7 of the function code set is answered `MBEXC` with the raw
code, whatever the code; `ACK` marks code 5 alone. The source's example is the case of `0x83` and `0x02`. -/
def Obligations.ExceptionResponsesAreReportedRaw : Prop :=
  (∀ (u f c : Byte) (s : State), f.getLsbD 7 = true → s.params.shape = .default → 1 ≤ maxPayload s →
    ∃ t rs, runInstrs (expand (.decResponse (frame u f [c]))) s = some (t, rs) ∧
      rs.getLast? = some { err := 4, data := c.setWidth 16 } ∧
      t.rxexc = true ∧ t.rxvalid = false ∧ t.rxunit = u ∧ t.rxfc = f ∧ t.rxplen = 1 ∧ t.excode = c ∧
      t.origfc = f &&& 0x7F ∧ (ackFlag t = true ↔ c = 5)) ∧
  frame 0x01 0x83 [0x02] = [0x01, 0x83, 0x02, 0xC0, 0xF1] ∧ (0x83 : Byte) &&& 0x7F = 0x03

/-! ### Rules over all commands (rules R24, R29, R35, R39, R40, R72, R96, R126, R220 to R227) -/

/-- R72: `RD` and `CRC.VERIFY` have no side effect on any state but the response (`RD` of an undefined number sets `ERR`); a pop that
answers a byte advances its read pointer and does nothing else, and the rewind puts the pointer back; building and parsing
repeat. -/
def Obligations.ReadsHaveOnlyTheListedSideEffects : Prop :=
  (∀ (r : Byte) (s t : State), exec (.rd r) s = .next t → t = { s with err := t.err, rsp := t.rsp } ∧
    (r.toNat ≤ 0x0F → t.err = s.err)) ∧
  (∀ s t : State, exec .crcVerify s = .next t → t = { s with rsp := t.rsp }) ∧
  (∀ (s t : State) (r : Response), exec .encPop s = .next t → t.rsp = some r →
    (r.err = 0 → t.txrd.toNat = s.txrd.toNat + 1 ∧ t = { s with txrd := t.txrd, rsp := some r }) ∧
    (r.err ≠ 0 → t = { s with err := 5, rsp := some r })) ∧
  (∀ (s t : State) (r : Response), exec .decPop s = .next t → t.rsp = some r →
    (r.err = 0 → t.rxrd.toNat = s.rxrd.toNat + 1 ∧ t = { s with rxrd := t.rxrd, rsp := some r }) ∧
    (r.err ≠ 0 → t = { s with err := 5, rsp := some r })) ∧
  (∀ s t u : State, exec .encPop s = .next t → exec .encRewind t = .next u →
    u = { s with txrd := 0, err := t.err, rsp := u.rsp }) ∧
  (∀ s t u : State, exec .decPop s = .next t → exec .decRewind t = .next u →
    u = { s with rxrd := 0, err := t.err, rsp := u.rsp }) ∧
  (∀ s t : State, exec .decParse s = .next t → t.rxbuf = s.rxbuf ∧ t.rxlen = s.rxlen ∧ exec .decParse t = .next t) ∧
  (∀ s t : State, exec .encBuild s = .next t →
    t.txunit = s.txunit ∧ t.txfc = s.txfc ∧ t.txplen = s.txplen ∧ t.txpay = s.txpay ∧ exec .encBuild t = .next t)

/-- R221: which command can answer which error code. -/
def Obligations.EachCommandAnswersItsListedCodes : Prop :=
  (∀ (i : Instr) (s t : State) (r : Response), exec i s = .next t → t.rsp = some r →
    r.err = 0 ∨ (i = .encBuild ∧ r.err = 1) ∨ (i = .encPop ∧ r.err = 5) ∨
    (i = .decParse ∧ (r.err = 2 ∨ r.err = 3 ∨ r.err = 4)) ∨ (i = .decPop ∧ r.err = 5) ∨
    (∃ n, i = .rd n ∧ r.err = 6)) ∧
  (∀ (w : Word) (why : ReservedClass) (s t : State), decode w = .illegal why → execWord w s = .next t →
    ∃ r, t.rsp = some r ∧ r.err = 6)

/-- R224: the write of `ERR`: the code of a failing command, unchanged after `OK`, and 0 after `CLRERR` and `SRESET`, which always
answer `OK`; `ERR` affects no command but `RD STATUS`. -/
def Obligations.ErrHoldsTheLastFailingCode : Prop :=
  (∀ (w : Word) (s t : State) (r : Response), execWord w s = .next t → t.rsp = some r →
    (r.err ≠ 0 → t.err = r.err) ∧
    (r.err = 0 → decode w ≠ .command .clrerr → decode w ≠ .command .sreset → t.err = s.err) ∧
    (decode w = .command .clrerr ∨ decode w = .command .sreset → r.err = 0 ∧ t.err = 0)) ∧
  (∀ (w : Word) (s t : State) (e : BitVec 3), decode w ≠ .command (.rd 0x00) → execWord w s = .next t →
    ∃ t', execWord w { s with err := e } = .next t' ∧ { t' with err := t.err } = t)

/-- R96's first sentence: a command that fails answers data 0, except `DEC.PARSE` ending with `MBEXC`, whose data is the exception
code. -/
def Obligations.FailingCommandsAnswerNoData : Prop :=
  ∀ (w : Word) (s t : State) (r : Response), execWord w s = .next t → t.rsp = some r → r.err ≠ 0 →
    (r.err ≠ 4 → r.data = 0) ∧
    (r.err = 4 → decode w = .command .decParse ∧ t.rxexc = true ∧ r.data = t.excode.setWidth 16)

/-- R227: what a failing command writes besides `ERR`. -/
def Obligations.FailingCommandsWriteOnlyTheListedState : Prop :=
  ∀ (w : Word) (s t : State) (r : Response), execWord w s = .next t → t.rsp = some r → r.err ≠ 0 →
    (decode w = .command .encBuild →
      t = { s with txvalid := false, txlen := 0, txrd := 0, txcrc := 0, err := r.err, rsp := some r }) ∧
    (decode w = .command .decParse → r.err = 4 →
      t = { s with
        rxunit := t.rxunit, rxfc := t.rxfc, rxplen := t.rxplen, excode := t.excode, origfc := t.origfc
        rxexc := true, rxvalid := false, rxrd := 0, err := r.err, rsp := some r }) ∧
    (decode w = .command .decParse → r.err ≠ 4 →
      t = { s with
        rxvalid := false, rxexc := false, rxunit := 0, rxfc := 0, rxplen := 0, rxrd := 0, excode := 0, origfc := 0
        err := r.err, rsp := some r }) ∧
    (decode w ≠ .command .encBuild → decode w ≠ .command .decParse → t = { s with err := r.err, rsp := some r })

/-- The table of R35: which command writes which state; what a command does not list it leaves as it was. Of `ERR` the table lists
only the two clearing commands, and any command may also write it when its answer is not `OK` (R224). -/
def Obligations.CommandsWriteOnlyTheirColumns : Prop :=
  ∀ (i : Instr) (s t : State), exec i s = .next t →
    (i ≠ .sreset → i ≠ .crcInit → (∀ d, i ≠ .crcByte d) → t.crc = s.crc) ∧
    (i ≠ .sreset → i ≠ .clrerr → (∀ r, t.rsp = some r → r.err = 0 → t.err = s.err)) ∧
    (i ≠ .sreset → (∀ d, i ≠ .encUnit d) → t.txunit = s.txunit) ∧
    (i ≠ .sreset → (∀ d, i ≠ .encFc d) → t.txfc = s.txfc) ∧
    (i ≠ .sreset → i ≠ .encStart → (∀ d, i ≠ .encPush d) → t.txplen = s.txplen) ∧
    ((∀ d, i ≠ .encPush d) → t.txpay = s.txpay) ∧
    (i ≠ .sreset → i ≠ .encStart → (∀ d, i ≠ .encUnit d) → (∀ d, i ≠ .encFc d) → (∀ d, i ≠ .encPush d) →
      i ≠ .encBuild → t.txlen = s.txlen ∧ t.txcrc = s.txcrc ∧ t.txvalid = s.txvalid ∧
      (i ≠ .encPop → i ≠ .encRewind → t.txrd = s.txrd)) ∧
    (i ≠ .sreset → i ≠ .decStart → (∀ d, i ≠ .decPush d) → t.rxlen = s.rxlen) ∧
    ((∀ d, i ≠ .decPush d) → t.rxbuf = s.rxbuf) ∧
    (i ≠ .sreset → i ≠ .decStart → (∀ d, i ≠ .decPush d) → i ≠ .decParse →
      decodedFields { t with rxrd := s.rxrd } = decodedFields s ∧
      (i ≠ .decPop → i ≠ .decRewind → t.rxrd = s.rxrd)) ∧
    t.params = s.params ∧ t.hostMoves = s.hostMoves

/-- R35's last paragraph: the encode side, the decode side and `CRC` share no state. A command of one group leaves the other groups' state
alone, and its effect and response depend on its own group's state only (`CRC.VERIFY` alone reads the decode side). -/
def Obligations.CommandGroupsDoNotShareState : Prop :=
  (∀ (i : Instr) (s t : State), exec i s = .next t →
    (i.group = .crcEngine → encodeSide t = encodeSide s ∧ decodeSide t = decodeSide s) ∧
    (i.group = .encoder → t.crc = s.crc ∧ decodeSide t = decodeSide s) ∧
    (i.group = .decoder → t.crc = s.crc ∧ encodeSide t = encodeSide s)) ∧
  (∀ (i : Instr) (s s' t : State), exec i s = .next t → s'.params = s.params →
    (i.group = .encoder → encodeSide s' = encodeSide s →
      ∃ t', exec i s' = .next t' ∧ encodeSide t' = encodeSide t ∧ t'.rsp = t.rsp) ∧
    (i.group = .decoder → decodeSide s' = decodeSide s →
      ∃ t', exec i s' = .next t' ∧ decodeSide t' = decodeSide t ∧ t'.rsp = t.rsp) ∧
    (i.group = .crcEngine → s'.crc = s.crc → (i = .crcVerify → decodeSide s' = decodeSide s) →
      ∃ t', exec i s' = .next t' ∧ t'.crc = t.crc ∧ t'.rsp = t.rsp))

/-- R126: only `CRC.INIT`, `CRC.BYTE`, `SRESET` and reset write `CRC`, and only `CRC.BYTE` and `RD CRC` read it: any other command does the
same whatever `CRC` holds. -/
def Obligations.OnlyTheStreamingCommandsTouchCrc : Prop :=
  (∀ (w : Word) (s t : State), execWord w s = .next t → decode w ≠ .command .crcInit → decode w ≠ .command .sreset →
    (∀ d, decode w ≠ .command (.crcByte d)) → t.crc = s.crc) ∧
  (∀ (w : Word) (s t : State) (c : Word), execWord w s = .next t → (∀ d, decode w ≠ .command (.crcByte d)) →
    decode w ≠ .command (.rd 0x01) → ∃ t', execWord w { s with crc := c } = .next t' ∧ { t' with crc := t.crc } = t)

/-- R24 and R29: each of the four position counters is kept, moved on by exactly one by the command that uses it, or put back to 0 by a
command R35 lists as doing so. The push or pop that moves a counter on is never one that puts it back, so none wraps. -/
def Obligations.CountersAdvanceByOneAndNeverWrap : Prop :=
  ∀ (i : Instr) (s t : State), exec i s = .next t →
    (t.txplen.toNat = s.txplen.toNat ∨ (t.txplen.toNat = s.txplen.toNat + 1 ∧ ∃ d, i = .encPush d) ∨
      (t.txplen = 0 ∧ (i = .sreset ∨ i = .encStart))) ∧
    (t.rxlen.toNat = s.rxlen.toNat ∨ (t.rxlen.toNat = s.rxlen.toNat + 1 ∧ ∃ d, i = .decPush d) ∨
      (t.rxlen = 0 ∧ (i = .sreset ∨ i = .decStart))) ∧
    (t.txrd.toNat = s.txrd.toNat ∨ (t.txrd.toNat = s.txrd.toNat + 1 ∧ i = .encPop) ∨
      (t.txrd = 0 ∧ (i = .sreset ∨ i = .encStart ∨ (∃ d, i = .encUnit d) ∨ (∃ d, i = .encFc d) ∨ (∃ d, i = .encPush d) ∨
        i = .encBuild ∨ i = .encRewind))) ∧
    (t.rxrd.toNat = s.rxrd.toNat ∨ (t.rxrd.toNat = s.rxrd.toNat + 1 ∧ i = .decPop) ∨
      (t.rxrd = 0 ∧ (i = .sreset ∨ i = .decStart ∨ (∃ d, i = .decPush d) ∨ i = .decParse ∨ i = .decRewind)))

/-- The buffers keep their canonical form: whatever the state, a step from buffers whose indices strictly rise leaves them so. The
form is the model's (log entry 5). -/
def Obligations.StepKeepsTheBuffersCanonical : Prop :=
  ∀ (s t : State), step s = .next t → ∀ b, Memory.wf (bufferOf b s) = true → Memory.wf (bufferOf b t) = true

/-- R36, R40 and R68: no step reads a buffer byte at or beyond the meaningful range. Two states that differ only there give the same
response and states that again differ only there, so no content left over or unspecified after reset can be observed. -/
def Obligations.UnmeaningfulBytesCannotBeObserved : Prop :=
  ∀ s s' t : State, BlockInv s → SameToTheHost s s' → step s = .next t →
    ∃ t', step s' = .next t' ∧ SameToTheHost t t' ∧ t'.rsp = t.rsp

/-- R39: every step keeps the invariant, from every state that meets it, whatever the host does. -/
def Obligations.StepKeepsTheBlockInvariant : Prop :=
  ∀ s t : State, BlockInv s → step s = .next t → BlockInv t

/-- R39: the invariant holds in the reset state, for every legal `MAX_PAYLOAD` and `SHAPE`; the machine starts with the default
parameters of R7 (log entry 3). -/
def Obligations.ResetMeetsTheBlockInvariant : Prop :=
  (∀ p : Config.Params, BlockInv (State.resetWith p)) ∧
  State.reset = State.resetWith { maxPayload := 253, shape := .default }

/-- R39 whole, items 1 to 8: it holds in the reset state with an empty history, and every step keeps it, from every state and history
that meet it. The history holds the pushes since each counter was last 0. -/
def Obligations.StepKeepsAllItemsOfTheInvariant : Prop :=
  (∀ p : Config.Params, LoggedInv { txpay := [], rxbuf := [] } (State.resetWith p)) ∧
  (∀ (l : PushLog) (s t : State), LoggedInv l s → step s = .next t → LoggedInv (l.next s t) t)

/-- R39 over runs: whatever the host does from the reset state, after any number of steps items 1 to 8 hold, and the byte a buffer
holds at each meaningful index is the one pushed at that index since the counter was last 0. -/
def Obligations.EveryReachableStateMeetsAllItems : Prop :=
  ∀ (p : Config.Params) (moves : List HostMove) (n : Nat), ∃ t l,
    runLogged n { State.resetWith p with hostMoves := moves } { txpay := [], rxbuf := [] } = some (t, l) ∧ LoggedInv l t ∧
    ∀ b, readRange b t 0 (meaningful b t) = (l.of b).take (meaningful b t)
end

