-- ==== Sys2Proof/Laws/Checksum.lean ====
section
/-! SUPPORT. The checksum over a growing sequence, and the linearity and invertibility of the shift pass (rules R120, R121). -/

namespace Sys2Proof.Machine

@[simp] theorem crc16_nil : crc16 [] = 0xFFFF := rfl

/-- One more byte at the end is one more step (R121). -/
theorem crc16_concat (s : List Byte) (d : Byte) : crc16 (s ++ [d]) = crcStep (crc16 s) d := by
  simp [crc16]

theorem crcShifts_succ (n : Nat) (c : Word) : crcShifts (n + 1) c = crcShifts n (crcShift c) := rfl

/-- Bit `i` of one pass: bit `i + 1` of the register, and the polynomial's bit `i` when bit 0 was 1 (R120). -/
theorem crcShift_getLsbD (c : Word) (i : Nat) :
    (crcShift c).getLsbD i = (c.getLsbD (i + 1) ^^ (c.getLsbD 0 && (0xA001#16).getLsbD i)) := by
  unfold crcShift
  split
  · rename_i h
    rw [BitVec.getLsbD_xor, BitVec.getLsbD_ushiftRight, h, Bool.true_and, Nat.add_comm]
    rfl
  · rename_i h
    rw [Bool.not_eq_true] at h
    rw [BitVec.getLsbD_ushiftRight, h, Bool.false_and, Bool.xor_false, Nat.add_comm]

/-- A pass is linear over XOR (R122's reason). -/
theorem crcShift_xor (a b : Word) : crcShift (a ^^^ b) = crcShift a ^^^ crcShift b := by
  apply BitVec.eq_of_getLsbD_eq
  intro i _
  simp only [crcShift_getLsbD, BitVec.getLsbD_xor]
  cases a.getLsbD (i + 1) <;> cases b.getLsbD (i + 1) <;> cases a.getLsbD 0 <;> cases b.getLsbD 0 <;>
    cases (0xA001#16).getLsbD i <;> rfl

/-- The passes are linear over XOR. -/
theorem crcShifts_xor (n : Nat) (a b : Word) : crcShifts n (a ^^^ b) = crcShifts n a ^^^ crcShifts n b := by
  induction n generalizing a b with
  | zero => rfl
  | succ n ih => simp [crcShifts_succ, crcShift_xor, ih]

/-- A pass loses nothing: bit 15 of the result is the tested bit (R131, R132's reason). -/
theorem crcShift_injective (a b : Word) (h : crcShift a = crcShift b) : a = b := by
  have hbit : ∀ i, (crcShift a).getLsbD i = (crcShift b).getLsbD i := fun i => by rw [h]
  simp only [crcShift_getLsbD] at hbit
  have h0 : a.getLsbD 0 = b.getLsbD 0 := by
    have := hbit 15
    rw [BitVec.getLsbD_of_ge a 16 (by omega), BitVec.getLsbD_of_ge b 16 (by omega)] at this
    simpa using this
  apply BitVec.eq_of_getLsbD_eq
  intro i _
  cases i with
  | zero => exact h0
  | succ i =>
    have := hbit i
    rw [h0] at this
    simpa using this

/-- The passes lose nothing. -/
theorem crcShifts_injective (n : Nat) (a b : Word) (h : crcShifts n a = crcShifts n b) : a = b := by
  induction n generalizing a b with
  | zero => exact h
  | succ n ih => exact crcShift_injective _ _ (ih _ _ h)

end Sys2Proof.Machine
end

