-- ==== Sys2Proof/Laws/Decode.lean ====
section
/-! SUPPORT. The fields of a word, and a word as its fields (rule R90). -/

namespace Sys2Proof

@[simp] theorem wordGrp_wordOf (g f : BitVec 4) (d : Byte) : wordGrp (wordOf g f d) = g := by
  apply BitVec.eq_of_getLsbD_eq
  intro i hi
  simp only [wordGrp, wordOf, BitVec.getLsbD_extractLsb', BitVec.getLsbD_append]
  have h1 : ¬ 12 + i < 8 := by omega
  have h2 : ¬ 12 + i - 8 < 4 := by omega
  have h3 : 12 + i - 8 - 4 = i := by omega
  simp [hi, h1, h2, h3]

@[simp] theorem wordFn_wordOf (g f : BitVec 4) (d : Byte) : wordFn (wordOf g f d) = f := by
  apply BitVec.eq_of_getLsbD_eq
  intro i hi
  simp only [wordFn, wordOf, BitVec.getLsbD_extractLsb', BitVec.getLsbD_append]
  have h1 : ¬ 8 + i < 8 := by omega
  simp [hi, h1]

@[simp] theorem wordImm_wordOf (g f : BitVec 4) (d : Byte) : wordImm (wordOf g f d) = d := by
  apply BitVec.eq_of_getLsbD_eq
  intro i hi
  simp only [wordImm, wordOf, BitVec.getLsbD_extractLsb', BitVec.getLsbD_append]
  simp [hi]

/-- A word is its three fields. -/
theorem wordOf_fields (w : Word) : wordOf (wordGrp w) (wordFn w) (wordImm w) = w := by
  apply BitVec.eq_of_getLsbD_eq
  intro i hi
  simp only [wordGrp, wordFn, wordImm, wordOf, BitVec.getLsbD_extractLsb', BitVec.getLsbD_append]
  by_cases h1 : i < 8
  · simp [h1]
  · by_cases h2 : i - 8 < 4
    · have h3 : 8 + (i - 8) = i := by omega
      simp [h1, h2, h3]
    · have h3 : 12 + (i - 8 - 4) = i := by omega
      have h4 : i - 8 - 4 < 4 := by omega
      simp [h1, h2, h3, h4]

end Sys2Proof
end

