-- ==== Sys2Proof/Laws/State.lean ====
section
/-! SUPPORT. One lemma per field for each operation that updates the state: what the field holds afterwards. With these a
proof reads a field of an updated state without unfolding the update. -/

namespace Sys2Proof.Machine

variable (s : State) (e : ErrCode) (data w : Word)

/-! `tx_invalidate` (R142). -/

@[simp] theorem txInvalidate_params : (txInvalidate s).params = s.params := rfl
@[simp] theorem txInvalidate_crc : (txInvalidate s).crc = s.crc := rfl
@[simp] theorem txInvalidate_err : (txInvalidate s).err = s.err := rfl
@[simp] theorem txInvalidate_txunit : (txInvalidate s).txunit = s.txunit := rfl
@[simp] theorem txInvalidate_txfc : (txInvalidate s).txfc = s.txfc := rfl
@[simp] theorem txInvalidate_txplen : (txInvalidate s).txplen = s.txplen := rfl
@[simp] theorem txInvalidate_txlen : (txInvalidate s).txlen = 0 := rfl
@[simp] theorem txInvalidate_txrd : (txInvalidate s).txrd = 0 := rfl
@[simp] theorem txInvalidate_txcrc : (txInvalidate s).txcrc = 0 := rfl
@[simp] theorem txInvalidate_txvalid : (txInvalidate s).txvalid = false := rfl
@[simp] theorem txInvalidate_rxlen : (txInvalidate s).rxlen = s.rxlen := rfl
@[simp] theorem txInvalidate_rxunit : (txInvalidate s).rxunit = s.rxunit := rfl
@[simp] theorem txInvalidate_rxfc : (txInvalidate s).rxfc = s.rxfc := rfl
@[simp] theorem txInvalidate_rxplen : (txInvalidate s).rxplen = s.rxplen := rfl
@[simp] theorem txInvalidate_rxrd : (txInvalidate s).rxrd = s.rxrd := rfl
@[simp] theorem txInvalidate_excode : (txInvalidate s).excode = s.excode := rfl
@[simp] theorem txInvalidate_origfc : (txInvalidate s).origfc = s.origfc := rfl
@[simp] theorem txInvalidate_rxvalid : (txInvalidate s).rxvalid = s.rxvalid := rfl
@[simp] theorem txInvalidate_rxexc : (txInvalidate s).rxexc = s.rxexc := rfl
@[simp] theorem txInvalidate_txpay : (txInvalidate s).txpay = s.txpay := rfl
@[simp] theorem txInvalidate_rxbuf : (txInvalidate s).rxbuf = s.rxbuf := rfl
@[simp] theorem txInvalidate_hostMoves : (txInvalidate s).hostMoves = s.hostMoves := rfl
@[simp] theorem txInvalidate_rsp : (txInvalidate s).rsp = s.rsp := rfl

/-! `rx_invalidate` (R161). -/

@[simp] theorem rxInvalidate_params : (rxInvalidate s).params = s.params := rfl
@[simp] theorem rxInvalidate_crc : (rxInvalidate s).crc = s.crc := rfl
@[simp] theorem rxInvalidate_err : (rxInvalidate s).err = s.err := rfl
@[simp] theorem rxInvalidate_txunit : (rxInvalidate s).txunit = s.txunit := rfl
@[simp] theorem rxInvalidate_txfc : (rxInvalidate s).txfc = s.txfc := rfl
@[simp] theorem rxInvalidate_txplen : (rxInvalidate s).txplen = s.txplen := rfl
@[simp] theorem rxInvalidate_txlen : (rxInvalidate s).txlen = s.txlen := rfl
@[simp] theorem rxInvalidate_txrd : (rxInvalidate s).txrd = s.txrd := rfl
@[simp] theorem rxInvalidate_txcrc : (rxInvalidate s).txcrc = s.txcrc := rfl
@[simp] theorem rxInvalidate_txvalid : (rxInvalidate s).txvalid = s.txvalid := rfl
@[simp] theorem rxInvalidate_rxlen : (rxInvalidate s).rxlen = s.rxlen := rfl
@[simp] theorem rxInvalidate_rxunit : (rxInvalidate s).rxunit = 0 := rfl
@[simp] theorem rxInvalidate_rxfc : (rxInvalidate s).rxfc = 0 := rfl
@[simp] theorem rxInvalidate_rxplen : (rxInvalidate s).rxplen = 0 := rfl
@[simp] theorem rxInvalidate_rxrd : (rxInvalidate s).rxrd = 0 := rfl
@[simp] theorem rxInvalidate_excode : (rxInvalidate s).excode = 0 := rfl
@[simp] theorem rxInvalidate_origfc : (rxInvalidate s).origfc = 0 := rfl
@[simp] theorem rxInvalidate_rxvalid : (rxInvalidate s).rxvalid = false := rfl
@[simp] theorem rxInvalidate_rxexc : (rxInvalidate s).rxexc = false := rfl
@[simp] theorem rxInvalidate_txpay : (rxInvalidate s).txpay = s.txpay := rfl
@[simp] theorem rxInvalidate_rxbuf : (rxInvalidate s).rxbuf = s.rxbuf := rfl
@[simp] theorem rxInvalidate_hostMoves : (rxInvalidate s).hostMoves = s.hostMoves := rfl
@[simp] theorem rxInvalidate_rsp : (rxInvalidate s).rsp = s.rsp := rfl

/-! Resetting the registers (R38, R191). -/

@[simp] theorem resetRegisters_params : (resetRegisters s).params = s.params := rfl
@[simp] theorem resetRegisters_crc : (resetRegisters s).crc = 0xFFFF := rfl
@[simp] theorem resetRegisters_err : (resetRegisters s).err = 0 := rfl
@[simp] theorem resetRegisters_txunit : (resetRegisters s).txunit = 0 := rfl
@[simp] theorem resetRegisters_txfc : (resetRegisters s).txfc = 0 := rfl
@[simp] theorem resetRegisters_txplen : (resetRegisters s).txplen = 0 := rfl
@[simp] theorem resetRegisters_txlen : (resetRegisters s).txlen = 0 := rfl
@[simp] theorem resetRegisters_txrd : (resetRegisters s).txrd = 0 := rfl
@[simp] theorem resetRegisters_txcrc : (resetRegisters s).txcrc = 0 := rfl
@[simp] theorem resetRegisters_txvalid : (resetRegisters s).txvalid = false := rfl
@[simp] theorem resetRegisters_rxlen : (resetRegisters s).rxlen = 0 := rfl
@[simp] theorem resetRegisters_rxunit : (resetRegisters s).rxunit = 0 := rfl
@[simp] theorem resetRegisters_rxfc : (resetRegisters s).rxfc = 0 := rfl
@[simp] theorem resetRegisters_rxplen : (resetRegisters s).rxplen = 0 := rfl
@[simp] theorem resetRegisters_rxrd : (resetRegisters s).rxrd = 0 := rfl
@[simp] theorem resetRegisters_excode : (resetRegisters s).excode = 0 := rfl
@[simp] theorem resetRegisters_origfc : (resetRegisters s).origfc = 0 := rfl
@[simp] theorem resetRegisters_rxvalid : (resetRegisters s).rxvalid = false := rfl
@[simp] theorem resetRegisters_rxexc : (resetRegisters s).rxexc = false := rfl
@[simp] theorem resetRegisters_txpay : (resetRegisters s).txpay = s.txpay := rfl
@[simp] theorem resetRegisters_rxbuf : (resetRegisters s).rxbuf = s.rxbuf := rfl
@[simp] theorem resetRegisters_hostMoves : (resetRegisters s).hostMoves = s.hostMoves := rfl
@[simp] theorem resetRegisters_rsp : (resetRegisters s).rsp = s.rsp := rfl

/-! `rst` (R251). -/

@[simp] theorem resetByPin_params : (resetByPin s).params = s.params := rfl
@[simp] theorem resetByPin_crc : (resetByPin s).crc = 0xFFFF := rfl
@[simp] theorem resetByPin_err : (resetByPin s).err = 0 := rfl
@[simp] theorem resetByPin_txunit : (resetByPin s).txunit = 0 := rfl
@[simp] theorem resetByPin_txfc : (resetByPin s).txfc = 0 := rfl
@[simp] theorem resetByPin_txplen : (resetByPin s).txplen = 0 := rfl
@[simp] theorem resetByPin_txlen : (resetByPin s).txlen = 0 := rfl
@[simp] theorem resetByPin_txrd : (resetByPin s).txrd = 0 := rfl
@[simp] theorem resetByPin_txcrc : (resetByPin s).txcrc = 0 := rfl
@[simp] theorem resetByPin_txvalid : (resetByPin s).txvalid = false := rfl
@[simp] theorem resetByPin_rxlen : (resetByPin s).rxlen = 0 := rfl
@[simp] theorem resetByPin_rxunit : (resetByPin s).rxunit = 0 := rfl
@[simp] theorem resetByPin_rxfc : (resetByPin s).rxfc = 0 := rfl
@[simp] theorem resetByPin_rxplen : (resetByPin s).rxplen = 0 := rfl
@[simp] theorem resetByPin_rxrd : (resetByPin s).rxrd = 0 := rfl
@[simp] theorem resetByPin_excode : (resetByPin s).excode = 0 := rfl
@[simp] theorem resetByPin_origfc : (resetByPin s).origfc = 0 := rfl
@[simp] theorem resetByPin_rxvalid : (resetByPin s).rxvalid = false := rfl
@[simp] theorem resetByPin_rxexc : (resetByPin s).rxexc = false := rfl
@[simp] theorem resetByPin_txpay : (resetByPin s).txpay = s.txpay := rfl
@[simp] theorem resetByPin_rxbuf : (resetByPin s).rxbuf = s.rxbuf := rfl
@[simp] theorem resetByPin_hostMoves : (resetByPin s).hostMoves = s.hostMoves := rfl
@[simp] theorem resetByPin_rsp : (resetByPin s).rsp = none := rfl

/-! The end of a command (R95, R224). -/

@[simp] theorem respond_params : (respond e data s).params = s.params := rfl
@[simp] theorem respond_crc : (respond e data s).crc = s.crc := rfl
@[simp] theorem respond_err : (respond e data s).err = if e = .ok then s.err else e.code := rfl
@[simp] theorem respond_txunit : (respond e data s).txunit = s.txunit := rfl
@[simp] theorem respond_txfc : (respond e data s).txfc = s.txfc := rfl
@[simp] theorem respond_txplen : (respond e data s).txplen = s.txplen := rfl
@[simp] theorem respond_txlen : (respond e data s).txlen = s.txlen := rfl
@[simp] theorem respond_txrd : (respond e data s).txrd = s.txrd := rfl
@[simp] theorem respond_txcrc : (respond e data s).txcrc = s.txcrc := rfl
@[simp] theorem respond_txvalid : (respond e data s).txvalid = s.txvalid := rfl
@[simp] theorem respond_rxlen : (respond e data s).rxlen = s.rxlen := rfl
@[simp] theorem respond_rxunit : (respond e data s).rxunit = s.rxunit := rfl
@[simp] theorem respond_rxfc : (respond e data s).rxfc = s.rxfc := rfl
@[simp] theorem respond_rxplen : (respond e data s).rxplen = s.rxplen := rfl
@[simp] theorem respond_rxrd : (respond e data s).rxrd = s.rxrd := rfl
@[simp] theorem respond_excode : (respond e data s).excode = s.excode := rfl
@[simp] theorem respond_origfc : (respond e data s).origfc = s.origfc := rfl
@[simp] theorem respond_rxvalid : (respond e data s).rxvalid = s.rxvalid := rfl
@[simp] theorem respond_rxexc : (respond e data s).rxexc = s.rxexc := rfl
@[simp] theorem respond_txpay : (respond e data s).txpay = s.txpay := rfl
@[simp] theorem respond_rxbuf : (respond e data s).rxbuf = s.rxbuf := rfl
@[simp] theorem respond_hostMoves : (respond e data s).hostMoves = s.hostMoves := rfl
@[simp] theorem respond_rsp : (respond e data s).rsp = some ⟨e.code, data⟩ := rfl

/-- `rsp <- (OK, data)` is `respond` with code 0. -/
@[simp] theorem answer_eq_respond : answer data s = respond .ok data s := rfl

/-- `raise` is `respond` with the error's code. -/
@[simp] theorem raise_eq_respond : raise e data s = respond e data s := rfl

/-- The answer to a reserved word is `ILLEGAL` with data 0. -/
@[simp] theorem answerReserved_eq_respond : answerReserved s = respond .illegal 0 s := rfl

/-! Offering a word (R98). -/

@[simp] theorem offerFirst_params : (offerFirst w s).params = s.params := rfl
@[simp] theorem offerFirst_crc : (offerFirst w s).crc = s.crc := rfl
@[simp] theorem offerFirst_err : (offerFirst w s).err = s.err := rfl
@[simp] theorem offerFirst_txunit : (offerFirst w s).txunit = s.txunit := rfl
@[simp] theorem offerFirst_txfc : (offerFirst w s).txfc = s.txfc := rfl
@[simp] theorem offerFirst_txplen : (offerFirst w s).txplen = s.txplen := rfl
@[simp] theorem offerFirst_txlen : (offerFirst w s).txlen = s.txlen := rfl
@[simp] theorem offerFirst_txrd : (offerFirst w s).txrd = s.txrd := rfl
@[simp] theorem offerFirst_txcrc : (offerFirst w s).txcrc = s.txcrc := rfl
@[simp] theorem offerFirst_txvalid : (offerFirst w s).txvalid = s.txvalid := rfl
@[simp] theorem offerFirst_rxlen : (offerFirst w s).rxlen = s.rxlen := rfl
@[simp] theorem offerFirst_rxunit : (offerFirst w s).rxunit = s.rxunit := rfl
@[simp] theorem offerFirst_rxfc : (offerFirst w s).rxfc = s.rxfc := rfl
@[simp] theorem offerFirst_rxplen : (offerFirst w s).rxplen = s.rxplen := rfl
@[simp] theorem offerFirst_rxrd : (offerFirst w s).rxrd = s.rxrd := rfl
@[simp] theorem offerFirst_excode : (offerFirst w s).excode = s.excode := rfl
@[simp] theorem offerFirst_origfc : (offerFirst w s).origfc = s.origfc := rfl
@[simp] theorem offerFirst_rxvalid : (offerFirst w s).rxvalid = s.rxvalid := rfl
@[simp] theorem offerFirst_rxexc : (offerFirst w s).rxexc = s.rxexc := rfl
@[simp] theorem offerFirst_txpay : (offerFirst w s).txpay = s.txpay := rfl
@[simp] theorem offerFirst_rxbuf : (offerFirst w s).rxbuf = s.rxbuf := rfl
@[simp] theorem offerFirst_hostMoves : (offerFirst w s).hostMoves = .command w :: s.hostMoves := rfl
@[simp] theorem offerFirst_rsp : (offerFirst w s).rsp = s.rsp := rfl

end Sys2Proof.Machine
end

