-- ==== Sys2Proof/Laws/Ops.lean ====
section
/-! SUPPORT. What the shared operations can do, said once: reading after writing a buffer, the canonical form and the index
range of a buffer, and which reads an operation leaves alone. -/

namespace Sys2Proof.Machine

/-! ### One buffer -/

@[simp] theorem Memory.lookup_nil (i : Nat) : Memory.lookup [] i = none := rfl

/-- A read after a write to the same index gives the value written (R62). -/
@[simp] theorem Memory.lookup_store_same (m : Memory) (i : Nat) (v : Byte) :
    Memory.lookup (Memory.store m i v) i = some v := by
  induction m with
  | nil => simp [Memory.store, Memory.lookup]
  | cons c m ih =>
    obtain ⟨a, u⟩ := c
    by_cases h1 : i < a
    · simp [Memory.store, Memory.lookup, h1]
    · by_cases h2 : i = a
      · simp [Memory.store, Memory.lookup, h2]
      · simp [Memory.store, Memory.lookup, h1, h2, ih]

/-- A write replaces no other byte (R62). -/
theorem Memory.lookup_store_other (m : Memory) (i j : Nat) (v : Byte) (h : j ≠ i) :
    Memory.lookup (Memory.store m i v) j = Memory.lookup m j := by
  induction m with
  | nil => simp [Memory.store, Memory.lookup, h]
  | cons c m ih =>
    obtain ⟨a, u⟩ := c
    by_cases h1 : i < a
    · simp [Memory.store, Memory.lookup, h1, h]
    · by_cases h2 : i = a
      · subst h2; simp [Memory.store, Memory.lookup, h]
      · simp [Memory.store, Memory.lookup, h1, h2, ih]

/-- Reading any index after a write. -/
theorem Memory.lookup_store (m : Memory) (i j : Nat) (v : Byte) :
    Memory.lookup (Memory.store m i v) j = if j = i then some v else Memory.lookup m j := by
  by_cases h : j = i
  · subst h; simp
  · simp [h, Memory.lookup_store_other]

/-- The canonical form, one cell at a time: the tail is canonical and its first index, if any, is larger. -/
theorem Memory.wf_cons (c : Host.Cell) (m : Memory) :
    Memory.wf (c :: m) = true ↔ (∀ d, m.head? = some d → c.1 < d.1) ∧ Memory.wf m = true := by
  cases m with
  | nil => simp [Memory.wf]
  | cons d m => simp [Memory.wf]

/-- The first index of a buffer after a write is the one written or the one that was first. -/
theorem Memory.head_store (m : Memory) (i : Nat) (v : Byte) (d : Host.Cell)
    (h : (Memory.store m i v).head? = some d) : d.1 = i ∨ ∃ c, m.head? = some c ∧ d.1 = c.1 := by
  cases m with
  | nil => simp [Memory.store] at h; exact .inl (by rw [← h])
  | cons c m =>
    obtain ⟨a, u⟩ := c
    by_cases h1 : i < a
    · simp [Memory.store, h1] at h; exact .inl (by rw [← h])
    · by_cases h2 : i = a
      · simp [Memory.store, h2] at h; exact .inl (by rw [← h, h2])
      · simp [Memory.store, h1, h2] at h; exact .inr ⟨(a, u), rfl, by rw [← h]⟩

/-- A write keeps the canonical form. -/
theorem Memory.wf_store (m : Memory) (i : Nat) (v : Byte) (h : Memory.wf m = true) :
    Memory.wf (Memory.store m i v) = true := by
  induction m with
  | nil => rfl
  | cons c m ih =>
    obtain ⟨a, u⟩ := c
    obtain ⟨hh, ht⟩ := (Memory.wf_cons _ _).1 h
    by_cases h1 : i < a
    · simpa [Memory.store, h1, Memory.wf] using h
    · by_cases h2 : i = a
      · subst h2
        simp only [Memory.store, Nat.lt_irrefl, if_false, if_true]
        exact (Memory.wf_cons _ _).2 ⟨fun d hd => hh d hd, ht⟩
      · simp only [Memory.store, h1, h2, if_false]
        refine (Memory.wf_cons _ _).2 ⟨fun d hd => ?_, ih ht⟩
        rcases Memory.head_store m i v d hd with h3 | ⟨c, hc, h3⟩
        · simp only [h3]; omega
        · rw [h3]; exact hh c hc

/-- A write inside a buffer's index range keeps every index in range. -/
theorem Memory.within_store (n : Nat) (m : Memory) (i : Nat) (v : Byte) (hi : i < n)
    (h : Memory.within n m = true) : Memory.within n (Memory.store m i v) = true := by
  induction m with
  | nil => simp [Memory.store, Memory.within, hi]
  | cons c m ih =>
    obtain ⟨a, u⟩ := c
    simp only [Memory.within, List.all_cons, Bool.and_eq_true] at h ih
    by_cases h1 : i < a
    · simp [Memory.store, h1, Memory.within, hi, h.1]
      simpa using h.2
    · by_cases h2 : i = a
      · subst h2
        simp only [Memory.store, Nat.lt_irrefl, if_false, if_true, Memory.within, List.all_cons, Bool.and_eq_true]
        exact h
      · simp only [Memory.store, h1, h2, if_false, Memory.within, List.all_cons, Bool.and_eq_true]
        exact ⟨h.1, ih h.2⟩

/-! ### The two buffers of a state -/

@[simp] theorem bufferOf_txpay (s : State) : bufferOf .txpay s = s.txpay := rfl
@[simp] theorem bufferOf_rxbuf (s : State) : bufferOf .rxbuf s = s.rxbuf := rfl

/-- The buffers of the reset state are in canonical form (R38). -/
theorem wf_resetWith (b : Config.Buffer) (p : Config.Params) : Memory.wf (bufferOf b (State.resetWith p)) = true := by
  cases b <;> rfl

/-- A read depends on the buffer's contents only. -/
theorem memRead_congr (b : Config.Buffer) (s t : State) (h : bufferOf b s = bufferOf b t) (i : Nat) :
    memRead b s i = memRead b t i := by
  simp [memRead, h]

/-- What `MemWrite` can do (R62): the byte at the index written, and every other byte as before. -/
theorem lookup_memWrite (b : Config.Buffer) (s : State) (i j : Nat) (v : Byte) :
    Memory.lookup (memWrite b s i v) j = if j = i then some v else Memory.lookup (bufferOf b s) j :=
  Memory.lookup_store _ _ _ _

/-- `MemWrite` keeps the canonical form. -/
theorem wf_memWrite (b : Config.Buffer) (s : State) (i : Nat) (v : Byte) (h : Memory.wf (bufferOf b s) = true) :
    Memory.wf (memWrite b s i v) = true :=
  Memory.wf_store _ _ _ h

/-- `MemWrite` below the buffer's size keeps every index in range (R36). -/
theorem within_memWrite (b : Config.Buffer) (s : State) (i : Nat) (v : Byte) (hi : i < bufferSize b s)
    (h : Memory.within (bufferSize b s) (bufferOf b s) = true) :
    Memory.within (bufferSize b s) (memWrite b s i v) = true :=
  Memory.within_store _ _ _ _ hi h

/-- Reading a range depends on the bytes of the range only. -/
theorem readRange_congr (b : Config.Buffer) (s t : State) (a n : Nat)
    (h : ∀ i, a ≤ i → i < a + n → memRead b s i = memRead b t i) : readRange b s a n = readRange b t a n := by
  refine List.map_congr_left fun i hi => ?_
  rw [List.mem_range'_1] at hi
  exact h i hi.1 hi.2

@[simp] theorem readRange_length (b : Config.Buffer) (s : State) (a n : Nat) : (readRange b s a n).length = n := by
  simp [readRange]

/-- A range with one more byte ends in that byte. -/
theorem readRange_succ (b : Config.Buffer) (s : State) (a n : Nat) :
    readRange b s a (n + 1) = readRange b s a n ++ [memRead b s (a + n)] := by
  simp [readRange, List.range'_concat]

/-- A range is a first part followed by the rest. -/
theorem readRange_add (b : Config.Buffer) (s : State) (a m n : Nat) :
    readRange b s a (m + n) = readRange b s a m ++ readRange b s (a + m) n := by
  simp only [readRange, ← List.map_append]
  congr 1
  simp [List.range'_append_1]

/-- The limits depend on the parameters only. -/
theorem maxPayload_congr (s t : State) (h : s.params = t.params) : maxPayload s = maxPayload t := by
  simp [maxPayload, h]

/-- `MAX_PAYLOAD` is in its legal range (R7). -/
theorem maxPayload_le (s : State) : maxPayload s ≤ 506 := Nat.le_of_lt_succ s.params.maxPayload.isLt

theorem frameMax_eq (s : State) : frameMax s = maxPayload s + 4 := rfl

end Sys2Proof.Machine
end

