-- ==== Sys2Proof/Laws/Frame.lean ====
section
/-! SUPPORT. What the operations do to the values computed from a state (limits, bytes read, the staged payload, the received
sequence), and what the pushes and the taking of a frame can do, said once. -/

namespace Sys2Proof.Machine

variable (s : State) (e : ErrCode) (data : Word)

/-! `tx_invalidate` (R142). -/

@[simp] theorem txInvalidate_maxPayload : maxPayload (txInvalidate s) = maxPayload s := rfl
@[simp] theorem txInvalidate_frameMax : frameMax (txInvalidate s) = frameMax s := rfl
@[simp] theorem txInvalidate_bufferOf (b : Config.Buffer) : bufferOf b (txInvalidate s) = bufferOf b s := by cases b <;> rfl
@[simp] theorem txInvalidate_memRead (b : Config.Buffer) (i : Nat) : memRead b (txInvalidate s) i = memRead b s i := by
  cases b <;> rfl
@[simp] theorem txInvalidate_meaningful (b : Config.Buffer) : meaningful b (txInvalidate s) = meaningful b s := by cases b <;> rfl
@[simp] theorem txInvalidate_stagedPayload : stagedPayload (txInvalidate s) = stagedPayload s := rfl
@[simp] theorem txInvalidate_received : received (txInvalidate s) = received s := rfl
@[simp] theorem txInvalidate_receivedPayload : receivedPayload (txInvalidate s) = receivedPayload s := rfl

/-! `rx_invalidate` (R161). -/

@[simp] theorem rxInvalidate_maxPayload : maxPayload (rxInvalidate s) = maxPayload s := rfl
@[simp] theorem rxInvalidate_frameMax : frameMax (rxInvalidate s) = frameMax s := rfl
@[simp] theorem rxInvalidate_bufferOf (b : Config.Buffer) : bufferOf b (rxInvalidate s) = bufferOf b s := by cases b <;> rfl
@[simp] theorem rxInvalidate_memRead (b : Config.Buffer) (i : Nat) : memRead b (rxInvalidate s) i = memRead b s i := by
  cases b <;> rfl
@[simp] theorem rxInvalidate_meaningful (b : Config.Buffer) : meaningful b (rxInvalidate s) = meaningful b s := by cases b <;> rfl
@[simp] theorem rxInvalidate_stagedPayload : stagedPayload (rxInvalidate s) = stagedPayload s := rfl
@[simp] theorem rxInvalidate_received : received (rxInvalidate s) = received s := rfl
@[simp] theorem rxInvalidate_receivedPayload : receivedPayload (rxInvalidate s) = receivedPayload s := rfl

/-! The end of a command (R224). -/

@[simp] theorem respond_maxPayload : maxPayload (respond e data s) = maxPayload s := rfl
@[simp] theorem respond_frameMax : frameMax (respond e data s) = frameMax s := rfl
@[simp] theorem respond_bufferOf (b : Config.Buffer) : bufferOf b (respond e data s) = bufferOf b s := by cases b <;> rfl
@[simp] theorem respond_memRead (b : Config.Buffer) (i : Nat) : memRead b (respond e data s) i = memRead b s i := by
  cases b <;> rfl
@[simp] theorem respond_meaningful (b : Config.Buffer) : meaningful b (respond e data s) = meaningful b s := by cases b <;> rfl
@[simp] theorem respond_stagedPayload : stagedPayload (respond e data s) = stagedPayload s := rfl
@[simp] theorem respond_received : received (respond e data s) = received s := rfl
@[simp] theorem respond_receivedPayload : receivedPayload (respond e data s) = receivedPayload s := rfl

/-! Taking a frame that passed the three checks (R164). -/

@[simp] theorem takeFrame_params : (takeFrame s).params = s.params := rfl
@[simp] theorem takeFrame_crc : (takeFrame s).crc = s.crc := rfl
@[simp] theorem takeFrame_err : (takeFrame s).err = s.err := rfl
@[simp] theorem takeFrame_txunit : (takeFrame s).txunit = s.txunit := rfl
@[simp] theorem takeFrame_txfc : (takeFrame s).txfc = s.txfc := rfl
@[simp] theorem takeFrame_txplen : (takeFrame s).txplen = s.txplen := rfl
@[simp] theorem takeFrame_txlen : (takeFrame s).txlen = s.txlen := rfl
@[simp] theorem takeFrame_txrd : (takeFrame s).txrd = s.txrd := rfl
@[simp] theorem takeFrame_txcrc : (takeFrame s).txcrc = s.txcrc := rfl
@[simp] theorem takeFrame_txvalid : (takeFrame s).txvalid = s.txvalid := rfl
@[simp] theorem takeFrame_rxlen : (takeFrame s).rxlen = s.rxlen := rfl
@[simp] theorem takeFrame_rxunit : (takeFrame s).rxunit = memRead .rxbuf s 0 := rfl
@[simp] theorem takeFrame_rxfc : (takeFrame s).rxfc = memRead .rxbuf s 1 := rfl
@[simp] theorem takeFrame_rxplen : (takeFrame s).rxplen = s.rxlen - 4 := rfl
@[simp] theorem takeFrame_rxrd : (takeFrame s).rxrd = 0 := rfl
@[simp] theorem takeFrame_excode : (takeFrame s).excode = 0 := rfl
@[simp] theorem takeFrame_origfc : (takeFrame s).origfc = 0 := rfl
@[simp] theorem takeFrame_rxvalid : (takeFrame s).rxvalid = false := rfl
@[simp] theorem takeFrame_rxexc : (takeFrame s).rxexc = false := rfl
@[simp] theorem takeFrame_txpay : (takeFrame s).txpay = s.txpay := rfl
@[simp] theorem takeFrame_rxbuf : (takeFrame s).rxbuf = s.rxbuf := rfl
@[simp] theorem takeFrame_hostMoves : (takeFrame s).hostMoves = s.hostMoves := rfl
@[simp] theorem takeFrame_rsp : (takeFrame s).rsp = s.rsp := rfl

/-- What a push does to the count (R24, R69, R147): one more up to `MAX_PAYLOAD + 1`, then nothing; it never wraps. -/
theorem pushedTxplen_toNat :
    (pushedTxplen s).toNat = if s.txplen.toNat ≤ maxPayload s then s.txplen.toNat + 1 else s.txplen.toNat := by
  have h := maxPayload_le s
  unfold pushedTxplen
  split
  · rw [BitVec.toNat_add]
    exact Nat.mod_eq_of_lt (by simp; omega)
  · rfl

/-- What a push does to the count (R24, R69, R163): one more up to `FRAME_MAX + 1`, then nothing; it never wraps. -/
theorem pushedRxlen_toNat :
    (pushedRxlen s).toNat = if s.rxlen.toNat ≤ frameMax s then s.rxlen.toNat + 1 else s.rxlen.toNat := by
  have h := maxPayload_le s
  have h4 := frameMax_eq s
  unfold pushedRxlen
  split
  · rw [BitVec.toNat_add]
    exact Nat.mod_eq_of_lt (by simp; omega)
  · rfl

/-- What a push does to `TXPAY` (R69, R147). -/
theorem lookup_pushedTxpay (d : Byte) (j : Nat) :
    Memory.lookup (pushedTxpay d s) j =
      if s.txplen.toNat < maxPayload s ∧ j = s.txplen.toNat then some d else Memory.lookup s.txpay j := by
  unfold pushedTxpay
  by_cases h : s.txplen.toNat < maxPayload s
  · simp [h, lookup_memWrite]
  · simp [h]

/-- What a push does to `RXBUF` (R69, R163). -/
theorem lookup_pushedRxbuf (d : Byte) (j : Nat) :
    Memory.lookup (pushedRxbuf d s) j =
      if s.rxlen.toNat < frameMax s ∧ j = s.rxlen.toNat then some d else Memory.lookup s.rxbuf j := by
  unfold pushedRxbuf
  by_cases h : s.rxlen.toNat < frameMax s
  · simp [h, lookup_memWrite]
  · simp [h]

/-- A push keeps the canonical form of `TXPAY`. -/
theorem wf_pushedTxpay (d : Byte) (h : Memory.wf s.txpay = true) : Memory.wf (pushedTxpay d s) = true := by
  unfold pushedTxpay
  split
  · exact wf_memWrite .txpay s _ d h
  · exact h

/-- A push keeps the canonical form of `RXBUF`. -/
theorem wf_pushedRxbuf (d : Byte) (h : Memory.wf s.rxbuf = true) : Memory.wf (pushedRxbuf d s) = true := by
  unfold pushedRxbuf
  split
  · exact wf_memWrite .rxbuf s _ d h
  · exact h

/-- The exception code `P[0]` is `RXBUF[2]`: a payload that is not empty starts there (R160, R164). -/
theorem receivedPayload_head (h : 4 < s.rxlen.toNat) : (receivedPayload s).head? = some (memRead .rxbuf s 2) := by
  obtain ⟨n, hn⟩ : ∃ n, s.rxlen.toNat - 4 = n + 1 := ⟨s.rxlen.toNat - 5, by omega⟩
  simp [receivedPayload, readRange, hn, List.range'_succ]

end Sys2Proof.Machine
end

