-- ==== Sys2Proof/Laws/History.lean ====
section
/-! SUPPORT. The history beside a state (rule R39 item 8): what a step pushes for each of the host's moves, and how one buffer's
history goes on. -/

namespace Sys2Proof.Machine

variable (b : Config.Buffer) (l : PushLog) (log : List Byte) (s t : State)

@[simp] theorem PushLog.of_txpay : l.of .txpay = l.txpay := rfl
@[simp] theorem PushLog.of_rxbuf : l.of .rxbuf = l.rxbuf := rfl

/-- Each buffer's history goes on by itself. -/
@[simp] theorem PushLog.next_of : (l.next s t).of b = logAfter b (l.of b) s t := by cases b <;> rfl

theorem pushedByStep_idle (h : s.hostMoves = []) : pushedByStep b s = none := by simp [pushedByStep, h]

theorem pushedByStep_rst (rest : List HostMove) (h : s.hostMoves = .rst :: rest) : pushedByStep b s = none := by
  simp [pushedByStep, h]

theorem pushedByStep_command (w : Word) (rest : List HostMove) (i : Instr) (h : s.hostMoves = .command w :: rest)
    (hd : decode w = .command i) : pushedByStep b s = pushedBy b i := by
  simp [pushedByStep, h, hd]

theorem pushedByStep_reserved (w : Word) (rest : List HostMove) (why : ReservedClass)
    (h : s.hostMoves = .command w :: rest) (hd : decode w = .illegal why) : pushedByStep b s = none := by
  simp [pushedByStep, h, hd]

/-- Where the counter is 0 the history begins again. -/
theorem logAfter_zero (h : bufferCounter b t = 0) : logAfter b log s t = [] := by simp [logAfter, h]

/-- A step that pushes nothing and leaves the counter above 0 keeps the history. -/
theorem logAfter_none (h : bufferCounter b t ≠ 0) (hp : pushedByStep b s = none) : logAfter b log s t = log := by
  simp [logAfter, h, hp]

/-- A push adds its byte at the end. -/
theorem logAfter_push (d : Byte) (h : bufferCounter b t ≠ 0) (hp : pushedByStep b s = some d) :
    logAfter b log s t = log ++ [d] := by
  simp [logAfter, h, hp]

end Sys2Proof.Machine
end

