-- ==== Sys2Proof/Laws/PerInstr.lean ====
section
/-! SUPPORT. What holds of every command as syntax, one lemma per constructor. The family `EncodeMatchesRow`: the word of each
command matches the row of the opcode map (rule R92) that bears its mnemonic. -/

namespace Sys2Proof.Laws

/-- The command's word matches a row of the opcode map with the command's mnemonic, and holds its operand in `IMM`. -/
def EncodeMatchesRow.Statement (i : Instr) : Prop :=
  wordImm (encode i) = i.operandByte ∧
    ∃ row ∈ opcodeTable, row.mnemonic = i.mnemonic ∧ encode i &&& row.mask = row.matchBits

theorem EncodeMatchesRow.nop : EncodeMatchesRow.Statement .nop :=
  ⟨by decide, opcodeTable[0], List.getElem_mem _, rfl, by decide⟩

theorem EncodeMatchesRow.sreset : EncodeMatchesRow.Statement .sreset :=
  ⟨by decide, opcodeTable[1], List.getElem_mem _, rfl, by decide⟩

theorem EncodeMatchesRow.clrerr : EncodeMatchesRow.Statement .clrerr :=
  ⟨by decide, opcodeTable[2], List.getElem_mem _, rfl, by decide⟩

theorem EncodeMatchesRow.rd (d : Byte) : EncodeMatchesRow.Statement (.rd d) := by
  have h : ∀ d : Byte, wordImm (encode (.rd d)) = d ∧
      encode (.rd d) &&& opcodeTable[3].mask = opcodeTable[3].matchBits := by decide +kernel
  exact ⟨(h d).1, opcodeTable[3], List.getElem_mem _, rfl, (h d).2⟩

theorem EncodeMatchesRow.crcInit : EncodeMatchesRow.Statement .crcInit :=
  ⟨by decide, opcodeTable[4], List.getElem_mem _, rfl, by decide⟩

theorem EncodeMatchesRow.crcByte (d : Byte) : EncodeMatchesRow.Statement (.crcByte d) := by
  have h : ∀ d : Byte, wordImm (encode (.crcByte d)) = d ∧
      encode (.crcByte d) &&& opcodeTable[5].mask = opcodeTable[5].matchBits := by decide +kernel
  exact ⟨(h d).1, opcodeTable[5], List.getElem_mem _, rfl, (h d).2⟩

theorem EncodeMatchesRow.crcVerify : EncodeMatchesRow.Statement .crcVerify :=
  ⟨by decide, opcodeTable[6], List.getElem_mem _, rfl, by decide⟩

theorem EncodeMatchesRow.encStart : EncodeMatchesRow.Statement .encStart :=
  ⟨by decide, opcodeTable[7], List.getElem_mem _, rfl, by decide⟩

theorem EncodeMatchesRow.encUnit (d : Byte) : EncodeMatchesRow.Statement (.encUnit d) := by
  have h : ∀ d : Byte, wordImm (encode (.encUnit d)) = d ∧
      encode (.encUnit d) &&& opcodeTable[8].mask = opcodeTable[8].matchBits := by decide +kernel
  exact ⟨(h d).1, opcodeTable[8], List.getElem_mem _, rfl, (h d).2⟩

theorem EncodeMatchesRow.encFc (d : Byte) : EncodeMatchesRow.Statement (.encFc d) := by
  have h : ∀ d : Byte, wordImm (encode (.encFc d)) = d ∧
      encode (.encFc d) &&& opcodeTable[9].mask = opcodeTable[9].matchBits := by decide +kernel
  exact ⟨(h d).1, opcodeTable[9], List.getElem_mem _, rfl, (h d).2⟩

theorem EncodeMatchesRow.encPush (d : Byte) : EncodeMatchesRow.Statement (.encPush d) := by
  have h : ∀ d : Byte, wordImm (encode (.encPush d)) = d ∧
      encode (.encPush d) &&& opcodeTable[10].mask = opcodeTable[10].matchBits := by decide +kernel
  exact ⟨(h d).1, opcodeTable[10], List.getElem_mem _, rfl, (h d).2⟩

theorem EncodeMatchesRow.encBuild : EncodeMatchesRow.Statement .encBuild :=
  ⟨by decide, opcodeTable[11], List.getElem_mem _, rfl, by decide⟩

theorem EncodeMatchesRow.encPop : EncodeMatchesRow.Statement .encPop :=
  ⟨by decide, opcodeTable[12], List.getElem_mem _, rfl, by decide⟩

theorem EncodeMatchesRow.encRewind : EncodeMatchesRow.Statement .encRewind :=
  ⟨by decide, opcodeTable[13], List.getElem_mem _, rfl, by decide⟩

theorem EncodeMatchesRow.decStart : EncodeMatchesRow.Statement .decStart :=
  ⟨by decide, opcodeTable[14], List.getElem_mem _, rfl, by decide⟩

theorem EncodeMatchesRow.decPush (d : Byte) : EncodeMatchesRow.Statement (.decPush d) := by
  have h : ∀ d : Byte, wordImm (encode (.decPush d)) = d ∧
      encode (.decPush d) &&& opcodeTable[15].mask = opcodeTable[15].matchBits := by decide +kernel
  exact ⟨(h d).1, opcodeTable[15], List.getElem_mem _, rfl, (h d).2⟩

theorem EncodeMatchesRow.decParse : EncodeMatchesRow.Statement .decParse :=
  ⟨by decide, opcodeTable[16], List.getElem_mem _, rfl, by decide⟩

theorem EncodeMatchesRow.decPop : EncodeMatchesRow.Statement .decPop :=
  ⟨by decide, opcodeTable[17], List.getElem_mem _, rfl, by decide⟩

theorem EncodeMatchesRow.decRewind : EncodeMatchesRow.Statement .decRewind :=
  ⟨by decide, opcodeTable[18], List.getElem_mem _, rfl, by decide⟩

end Sys2Proof.Laws
end

