-- ==== Sys2Proof/Tests/Slice0.lean ====
section
/-! SUPPORT. Tests. Expected values come from the spec's tables (30_encoding.md, 95_test_vectors.md), never from the model. The
second half shows, for each statement that has hypotheses, concrete values that meet them together. -/

namespace Sys2Proof.Tests

open Sys2Proof.Machine

/-! ### Helpers -/

/-- A view of the next state, with the response. -/
def after {α : Type} (view : State → α) : Host.Outcome State Fault Refusal → Option (α × Option Response)
  | .next t => some (view t, t.rsp)
  | .fault _ => none
  | .refused _ => none

/-- A response. -/
def rsp (e : BitVec 3) (d : Word) : Option Response := some { err := e, data := d }

/-- Bytes as the contents of a buffer from index 0. -/
def cellsFrom : Nat → List Byte → Memory
  | _, [] => []
  | n, b :: bs => (n, b) :: cellsFrom (n + 1) bs

/-- The reset state with `MAX_PAYLOAD` 1, so that the limits are near: `FRAME_MAX` is 5. -/
def small : State := State.resetWith { maxPayload := 1, shape := .default }

/-- Received bytes, pushed and not parsed. -/
def receiving (bs : List Byte) : State :=
  { small with rxbuf := cellsFrom 0 bs, rxlen := BitVec.ofNat 9 bs.length }

/-- A built frame `01 83 02 C0 F1`, one byte of it popped. -/
def building : State :=
  { small with
    txunit := 0x01, txfc := 0x83, txpay := [(0, 0x02)], txplen := 1, txlen := 5, txrd := 1, txcrc := 0xF1C0
    txvalid := true }

/-- The same beside a decoded exception response `01 83 02 C0 F1` (95_test_vectors.md, 5.2). -/
def busy : State :=
  { building with
    err := 4, rxbuf := cellsFrom 0 [0x01, 0x83, 0x02, 0xC0, 0xF1], rxlen := 5
    rxunit := 0x01, rxfc := 0x83, rxplen := 1, excode := 0x02, origfc := 0x03, rxexc := true }

/-! ### Well-formedness and decoding (30_encoding.md R90 to R94, 95_test_vectors.md 3.1) -/

theorem test_wf_refuses_undefined_register : (Instr.rd 0x10).wf = false := by decide
theorem test_wf_accepts_last_register : (Instr.rd 0x0F).wf = true := by decide

theorem test_decode_system :
    decode 0b0000000000000000#16 = .command .nop ∧ decode 0b0000000100000000#16 = .command .sreset ∧
    decode 0b0000001000000000#16 = .command .clrerr ∧ decode 0b0000001100000000#16 = .command (.rd 0x00) ∧
    decode 0b0000001100001111#16 = .command (.rd 0x0F) := by decide

theorem test_decode_crc_engine :
    decode 0b0001000000000000#16 = .command .crcInit ∧ decode 0b0001000100110001#16 = .command (.crcByte 0x31) ∧
    decode 0b0001001000000000#16 = .command .crcVerify := by decide

theorem test_decode_encoder :
    decode 0b0010000000000000#16 = .command .encStart ∧ decode 0b0010000100010001#16 = .command (.encUnit 0x11) ∧
    decode 0b0010001000000110#16 = .command (.encFc 0x06) ∧ decode 0b0010001100001010#16 = .command (.encPush 0x0A) ∧
    decode 0b0010010000000000#16 = .command .encBuild ∧ decode 0b0010010100000000#16 = .command .encPop ∧
    decode 0b0010011000000000#16 = .command .encRewind := by decide

theorem test_decode_decoder :
    decode 0b0011000000000000#16 = .command .decStart ∧ decode 0b0011000110000011#16 = .command (.decPush 0x83) ∧
    decode 0b0011001000000000#16 = .command .decParse ∧ decode 0b0011001100000000#16 = .command .decPop ∧
    decode 0b0011010000000000#16 = .command .decRewind := by decide

theorem test_decode_refuses_by_name :
    decode 0x0001 = .illegal .operandNotZero ∧ decode 0x0310 = .illegal .undefinedRegister ∧
    decode 0x0400 = .illegal .reservedFunction ∧ decode 0x1300 = .illegal .reservedFunction ∧
    decode 0x2700 = .illegal .reservedFunction ∧ decode 0x3500 = .illegal .reservedFunction ∧
    decode 0x4000 = .illegal .reservedGroup ∧ decode 0xFFFF = .illegal .reservedGroup := by decide

theorem test_decodeTableWord : decodeTableWord 16 0x31C5 = some (.decPush 0xC5) ∧ decodeTableWord 16 0x2401 = none := by
  decide

/-- 30_encoding.md R102, with a line of program P9. -/
theorem test_assembleLine :
    assembleLine ['R', 'D', ' ', 'C', 'A', 'P', ' ', ';', ' ', 'x'] = some (.rd 0x0F) ∧
    assembleLine ['C', 'R', 'C', '.', 'B', 'Y', 'T', 'E', ' ', '0', 'x', '3', '1'] = some (.crcByte 0x31) ∧
    assembleLine ['E', 'N', 'C', '.', 'P', 'U', 'S', 'H', ' ', '2', '5', '6'] = none := by decide +kernel

/-! ### The checksum (95_test_vectors.md 2.1 to 2.3) -/

theorem test_crc16_check_value :
    crc16 [0x31, 0x32, 0x33, 0x34, 0x35, 0x36, 0x37, 0x38, 0x39] = 0x4B37 := by decide +kernel

theorem test_crcStep :
    crcStep 0xFFFF 0x01 = 0x807E ∧ crcStep 0x1234 0x56 = 0xE993 ∧ crcStep 0x8000 0x00 = 0x0080 := by decide +kernel

theorem test_frame :
    frame 0x01 0x03 [0x02, 0x08, 0xFC] = [0x01, 0x03, 0x02, 0x08, 0xFC, 0xBF, 0xC5] := by decide +kernel

theorem test_verify :
    verify [0xFF] = false ∧ verify [0xFF, 0xFF] = true ∧ verify [0x01, 0x03, 0x40, 0x21] = true ∧
    verify [0x01, 0x03, 0x21, 0x40] = false := by decide +kernel

/-! ### One step of each command (95_test_vectors.md 2.5, 3.2, 4.1, 5) -/

theorem test_nop : after (fun t => t.err) (exec .nop { small with err := 3 }) = some (3, rsp 0 0) := by decide

theorem test_sreset :
    after (fun t => { t with rsp := none, txpay := [], rxbuf := [] }) (exec .sreset busy) = some (small, rsp 0 0) := by
  decide

/-- `STATUS` 0024 becomes 0020 beside a built frame's bit. -/
theorem test_clrerr :
    after (fun t => (statusWord t, t.excode)) (exec .clrerr { busy with txvalid := false }) =
      some ((0x0020, 0x02), rsp 0 0) := by decide +kernel

theorem test_rd_cap : after (fun t => t.err) (exec (.rd 0x0F) { State.reset with err := 6 }) = some (6, rsp 0 0x00FD) := by
  decide +kernel

theorem test_rd_undefined : after (fun t => t.err) (exec (.rd 0x10) small) = some (6, rsp 6 0) := by decide

theorem test_crcInit : after (fun t => t.crc) (exec .crcInit { small with crc := 0x4B37 }) = some (0xFFFF, rsp 0 0) := by
  decide

theorem test_crcByte :
    after (fun t => t.crc) (exec (.crcByte 0x03) { small with crc := 0x807E }) = some (0x2140, rsp 0 0x2140) := by
  decide +kernel

theorem test_crcVerify_good : after (fun t => t.crc) (exec .crcVerify (receiving [0xFF, 0xFF])) = some (0xFFFF, rsp 0 1) := by
  decide +kernel

theorem test_crcVerify_short : after (fun t => t.err) (exec .crcVerify (receiving [0xFF])) = some (0, rsp 0 0) := by
  decide +kernel

theorem test_encStart :
    after (fun t => (t.txplen, t.txvalid, t.txcrc, t.txunit)) (exec .encStart building) = some ((0, false, 0, 0x01), rsp 0 0) := by
  decide

/-- The same value still invalidates. -/
theorem test_encUnit :
    after (fun t => (t.txunit, t.txvalid, t.txlen, t.txrd)) (exec (.encUnit 0x01) building) =
      some ((0x01, false, 0, 0), rsp 0 0) := by decide

theorem test_encFc : after (fun t => t.txfc) (exec (.encFc 0x83) small) = some (0x83, rsp 0 0) := by decide

theorem test_encPush_stores :
    after (fun t => (t.txpay, t.txplen)) (exec (.encPush 0xAA) small) = some (([(0, 0xAA)], 1), rsp 0 1) := by decide

theorem test_encPush_full :
    after (fun t => (t.txpay, t.txplen)) (exec (.encPush 0xAA) building) = some (([(0, 0x02)], 2), rsp 0 2) := by decide

/-- From reset the frame is `00 00 01 B0`. -/
theorem test_encBuild :
    after (fun t => (t.txcrc, t.txlen, t.txvalid)) (exec .encBuild State.reset) = some ((0xB001, 4, true), rsp 0 4) := by
  decide +kernel

theorem test_encBuild_too_long :
    after (fun t => (statusWord t, t.txplen)) (exec .encBuild { building with txplen := 2 }) =
      some ((0x0081, 2), rsp 1 0) := by decide +kernel

theorem test_encPop : after (fun t => t.txrd) (exec .encPop { building with txrd := 4 }) = some (5, rsp 0 0x00F1) := by
  decide +kernel

theorem test_encPop_empty : after (fun t => (t.txrd, t.err)) (exec .encPop { building with txrd := 5 }) = some ((5, 5), rsp 5 0) := by
  decide

theorem test_encRewind : after (fun t => t.txrd) (exec .encRewind building) = some (0, rsp 0 0) := by decide

theorem test_decStart :
    after (fun t => (t.rxlen, t.rxexc, t.rxfc, t.excode)) (exec .decStart busy) = some ((0, false, 0, 0), rsp 0 0) := by decide

theorem test_decPush_stores :
    after (fun t => (t.rxbuf, t.rxlen)) (exec (.decPush 0xC5) (receiving [0x01])) =
      some (([(0, 0x01), (1, 0xC5)], 2), rsp 0 2) := by decide

/-- The push past `FRAME_MAX` is dropped and discards the decoded frame. -/
theorem test_decPush_full :
    after (fun t => (t.rxlen, rxovfFlag t, t.rxexc, t.rxunit)) (exec (.decPush 0x00) busy) =
      some ((6, true, false, 0), rsp 0 6) := by decide +kernel

theorem test_decParse_normal :
    after (fun t => (statusWord t, t.rxunit, t.rxfc, t.rxplen)) (exec .decParse (receiving [0x01, 0x03, 0x00, 0x20, 0xF0])) =
      some ((0x0010, 0x01, 0x03, 1), rsp 0 1) := by decide +kernel

theorem test_decParse_acknowledge :
    after (fun t => (statusWord t, t.excode, t.origfc)) (exec .decParse (receiving [0x01, 0x85, 0x05, 0x82, 0x93])) =
      some ((0x0064, 0x05, 0x05), rsp 4 5) := by decide +kernel

theorem test_decPop : after (fun t => t.rxrd) (exec .decPop busy) = some (1, rsp 0 2) := by decide +kernel

theorem test_decPop_empty : after (fun t => t.err) (exec .decPop { busy with rxrd := 1 }) = some (5, rsp 5 0) := by decide

theorem test_decRewind : after (fun t => t.rxrd) (exec .decRewind { busy with rxrd := 1 }) = some (0, rsp 0 0) := by decide

/-- The word placed where the step fetches is the one the next step runs, straight after reset. -/
theorem test_step_runs_the_placed_word :
    after (fun t => (t.crc, t.hostMoves)) (step (State.reset.withFetchWord 16 0x1101)) = some ((0x807E, []), rsp 0 0x807E) := by
  decide +kernel

theorem test_step_answers_a_reserved_word :
    after (fun t => t.err) (step (State.reset.withFetchWord 16 0x2401)) = some (6, rsp 6 0) := by decide

/-! ### The hypotheses of the statements can be met

Each theorem below is named after the obligation whose hypotheses it meets, with a value for each clause and at the limits. -/

theorem test_hyp_DecodeOfEncodeIsTheCommand : (Instr.rd 0x0F).wf = true ∧ (Instr.encPush 0xFF).wf = true := by decide

theorem test_hyp_EncodeOfDecodeIsTheWord : decode 0x030F = .command (.rd 0x0F) := by decide

theorem test_hyp_DecoderFollowsTheOpcodeMap :
    (⟨"RD", .R, 0x0300, 0xFF00⟩ : OpcodeRow) ∈ opcodeTable ∧ (0x030F#16) &&& 0xFF00 = 0x0300 := by decide

theorem test_hyp_ReservedWordsAreAnsweredIllegal :
    decode 0x4000 = .illegal .reservedGroup ∧ decode 0x0FFF = .illegal .reservedFunction ∧
    decode 0x3401 = .illegal .operandNotZero ∧ decode 0x03FF = .illegal .undefinedRegister := by decide

theorem test_hyp_StepTakesTheHostsNextMove :
    small.hostMoves = [] ∧ { small with hostMoves := [.rst, .command 0] }.hostMoves = .rst :: [.command 0] ∧
    ({ small with hostMoves := [.command 0x2500] }.hostMoves = .command 0x2500 :: [] ∧ decode 0x2500 = .command .encPop) ∧
    ({ small with hostMoves := [.command 0xFFFF] }.hostMoves = .command 0xFFFF :: [] ∧
      decode 0xFFFF = .illegal .reservedGroup) := by decide

theorem test_hyp_PlacedWordRunsNext : (Instr.rd 0x0F).wf = true := by decide

theorem test_hyp_RunOfWordsIsRunOfCommands :
    ∀ i ∈ ([.encPush 0xFF, .rd 0x0F, .decParse] : List Instr), i.wf = true := by decide

theorem test_hyp_ResetLeavesTheListedValues :
    (∃ p : Config.Params, State.reset = State.resetWith p) ∧ ∃ s, exec .sreset busy = .next s := ⟨⟨_, rfl⟩, _, rfl⟩

theorem test_hyp_EveryWordIsAnsweredOnce :
    after (fun t => t.rxrd) (step { busy with hostMoves := [.command 0x3300] }) = some (1, rsp 0 2) := by decide +kernel

theorem test_hyp_SresetAndRstGiveTheResetState :
    { busy with hostMoves := [.rst] }.hostMoves = .rst :: [] := rfl

theorem test_hyp_RdAnswersTheNumberedRegister : (0x0F : Byte).toNat ≤ 0x0F ∧ 0x0F < (0x10 : Byte).toNat := by decide

theorem test_hyp_StraightAfterResetNothingNeedsSettingUp :
    State.resetWith { maxPayload := 0, shape := .default } = State.resetWith { maxPayload := 0, shape := .default } := rfl

theorem test_hyp_CrcVerifyAnswersTheCheck :
    ((receiving [0x01, 0x83, 0x02, 0xC0, 0xF1]).rxlen.toNat ≤ frameMax small ∧
      verify (readRange .rxbuf (receiving [0x01, 0x83, 0x02, 0xC0, 0xF1]) 0 5) = true) ∧
    frameMax small < { busy with rxlen := 6 }.rxlen.toNat ∧
    verify (readRange .rxbuf (receiving [0x01, 0x03]) 0 2) = false ∧ (receiving [0xFF]).rxlen.toNat < 2 := by decide +kernel

theorem test_hyp_ChecksumRoundTrips : ([0x01, 0x83, 0x02] : List Byte).length ≤ frameMax small - 2 := by decide

theorem test_hyp_ResidueIsZeroExactlyWhenVerified : 2 ≤ ([0xFF, 0xFF] : List Byte).length := by decide

theorem test_hyp_OneInvertedBitIsDetected : 3 < (withCrc [0x01, 0x03]).length := by decide +kernel

theorem test_hyp_EncStartBeginsANewPayload :
    ∃ t, exec .encStart building = .next t ∧ t.txplen.toNat < building.txplen.toNat := ⟨_, rfl, by decide⟩

theorem test_hyp_EncPushAppendsOrSaturates :
    small.txplen.toNat < maxPayload small ∧ building.txplen.toNat = maxPayload building ∧
    maxPayload small < { small with txplen := 2 }.txplen.toNat := by decide

theorem test_hyp_EncBuildMakesTheFrameOfTheStaging :
    maxPayload small < { small with txplen := 2 }.txplen.toNat ∧ building.txplen.toNat ≤ maxPayload building ∧
    ∃ t, exec .encBuild building = .next t := ⟨by decide, by decide, _, rfl⟩

theorem test_hyp_EncPopAnswersTheNextFrameByte :
    (building.txvalid = true ∧ { building with txrd := 4 }.txrd.toNat < building.txlen.toNat) ∧ small.txvalid = false ∧
    building.txlen.toNat ≤ { building with txrd := 5 }.txrd.toNat := by decide

theorem test_hyp_EncodeRequestReadsBackAsTheFrame :
    ([0x02] : List Byte).length ≤ maxPayload small ∧ maxPayload small < ([0x02, 0x00] : List Byte).length := by decide

theorem test_hyp_DecStartBeginsANewSequence :
    ∃ t, exec .decStart busy = .next t ∧ t.rxlen.toNat < busy.rxlen.toNat := ⟨_, rfl, by decide⟩

theorem test_hyp_DecPushAppendsOrSaturates :
    (receiving [0x01, 0x83, 0x02, 0xC0]).rxlen.toNat < frameMax small ∧ busy.rxlen.toNat = frameMax busy ∧
    frameMax small < { busy with rxlen := 6 }.rxlen.toNat := by decide

/-- The hypotheses the clauses of `DecParseChecksInOrder` share. -/
def parses (bs : List Byte) : Bool × Bool × Bool × Bool :=
  (decide (4 ≤ (receiving bs).rxlen.toNat), decide ((receiving bs).rxlen.toNat ≤ frameMax small),
    verify (readRange .rxbuf (receiving bs) 0 bs.length),
    shape .default (memRead .rxbuf (receiving bs) 1)
      (((readRange .rxbuf (receiving bs) 0 bs.length).drop 2).take (bs.length - 4)))

theorem test_hyp_DecParseChecksInOrder :
    (receiving [0x01, 0x03, 0x40]).rxlen.toNat < 4 ∧ frameMax small < { busy with rxlen := 6 }.rxlen.toNat ∧
    (parses [0x01, 0x83, 0x02, 0xC0, 0xF0]).2.2.1 = false ∧ parses [0x01, 0x03, 0x40, 0x21] = (true, true, true, false) ∧
    (parses [0x01, 0x83, 0x02, 0xC0, 0xF1] = (true, true, true, true) ∧ (0x83#8).getLsbD 7 = true) ∧
    (parses [0x01, 0x07, 0x41, 0xE2] = (true, true, true, true) ∧ (0x07#8).getLsbD 7 = false) := by decide +kernel

theorem test_hyp_DecPopAnswersTheNextPayloadByte :
    ((busy.rxvalid = true ∨ busy.rxexc = true) ∧ busy.rxrd.toNat < busy.rxplen.toNat) ∧
    (small.rxvalid = false ∧ small.rxexc = false) ∧ busy.rxplen.toNat ≤ { busy with rxrd := 1 }.rxrd.toNat := by decide

theorem test_hyp_DefaultShapeIsTheTableOfReplyLayouts : (0x83#8).getLsbD 7 = true := by decide

theorem test_hyp_FrameRoundTripsThroughTheDecoder :
    ([0x00] : List Byte).length ≤ maxPayload small ∧ (0x03#8).getLsbD 7 = false ∧
    shape small.params.shape 0x03 [0x00] = true := by decide +kernel

theorem test_hyp_CorruptedFramesAreAnsweredChecksum :
    (([0x02] : List Byte).length ≤ maxPayload small ∧ 4 < ([0x02] : List Byte).length + 4) ∧
    (4 ≤ ([0x01, 0x83, 0x02, 0xC0, 0xF0] : List Byte).length ∧
      ([0x01, 0x83, 0x02, 0xC0, 0xF0] : List Byte).length ≤ frameMax small ∧
      verify [0x01, 0x83, 0x02, 0xC0, 0xF0] = false) := by decide +kernel

theorem test_hyp_ExceptionResponsesAreReportedRaw :
    (0x83#8).getLsbD 7 = true ∧ small.params.shape = .default ∧ 1 ≤ maxPayload small := by decide

theorem test_hyp_ReadsHaveOnlyTheListedSideEffects :
    (∃ t, exec (.rd 0x0F) busy = .next t) ∧ (0x0F : Byte).toNat ≤ 0x0F ∧ (∃ t, exec .crcVerify busy = .next t) ∧
    (after (fun t => t.txrd) (exec .encPop building) = some (2, rsp 0 0x83) ∧
      after (fun t => t.txrd) (exec .encPop { building with txrd := 5 }) = some (5, rsp 5 0)) ∧
    (after (fun t => t.rxrd) (exec .decPop busy) = some (1, rsp 0 2) ∧
      after (fun t => t.rxrd) (exec .decPop { busy with rxrd := 1 }) = some (1, rsp 5 0)) ∧
    (∃ t u, exec .encPop building = .next t ∧ exec .encRewind t = .next u) ∧
    (∃ t u, exec .decPop busy = .next t ∧ exec .decRewind t = .next u) ∧
    after (fun t => t.rxfc) (exec .decParse busy) = some (0x83, rsp 4 2) ∧ ∃ t, exec .encBuild building = .next t :=
  ⟨⟨_, rfl⟩, by decide, ⟨_, rfl⟩, by decide +kernel, by decide +kernel, ⟨_, _, rfl, rfl⟩, ⟨_, _, rfl, rfl⟩,
    by decide +kernel, ⟨_, rfl⟩⟩

theorem test_hyp_EachCommandAnswersItsListedCodes :
    (∃ t r, exec .decPop { busy with rxrd := 1 } = .next t ∧ t.rsp = some r) ∧
    (decode 0xFFFF = .illegal .reservedGroup ∧ after (fun t => t.err) (execWord 0xFFFF busy) = some (6, rsp 6 0)) :=
  ⟨⟨_, _, rfl, rfl⟩, by decide, by decide⟩

/-- A failing word, a word answered `OK` that is neither of the two clearing commands, and those two. -/
theorem test_hyp_ErrHoldsTheLastFailingCode :
    after (fun t => t.err) (execWord 0xFFFF busy) = some (6, rsp 6 0) ∧
    (after (fun t => t.rxrd) (execWord 0x3300 busy) = some (1, rsp 0 2) ∧ decode 0x3300 ≠ .command .clrerr ∧
      decode 0x3300 ≠ .command .sreset ∧ decode 0x3300 ≠ .command (.rd 0x00)) ∧
    (after (fun t => t.rxrd) (execWord 0x0200 busy) = some (0, rsp 0 0) ∧ decode 0x0200 = .command .clrerr) ∧
    (after (fun t => t.rxrd) (execWord 0x0100 busy) = some (0, rsp 0 0) ∧ decode 0x0100 = .command .sreset) := by
  decide +kernel

theorem test_hyp_FailingCommandsAnswerNoData :
    after (fun t => t.err) (execWord 0x2500 small) = some (5, rsp 5 0) ∧
    after (fun t => t.err) (execWord 0x3200 busy) = some (4, rsp 4 2) := by decide +kernel

/-- A failing command for each clause. -/
theorem test_hyp_FailingCommandsWriteOnlyTheListedState :
    (after (fun t => t.err) (execWord 0x2400 { building with txplen := 2 }) = some (1, rsp 1 0) ∧
      decode 0x2400 = .command .encBuild) ∧
    (after (fun t => t.err) (execWord 0x3200 busy) = some (4, rsp 4 2) ∧ decode 0x3200 = .command .decParse) ∧
    after (fun t => t.err) (execWord 0x3200 (receiving [0x01])) = some (3, rsp 3 0) ∧
    (after (fun t => t.err) (execWord 0x2500 small) = some (5, rsp 5 0) ∧ decode 0x2500 ≠ .command .encBuild ∧
      decode 0x2500 ≠ .command .decParse) := by decide +kernel

theorem test_hyp_CommandsWriteOnlyTheirColumns :
    after (fun t => t.err) (exec (.decPush 0xC5) busy) = some (4, rsp 0 6) := by decide +kernel

theorem test_hyp_CountersAdvanceByOneAndNeverWrap : ∃ t, exec (.encPush 0xAA) busy = .next t := ⟨_, rfl⟩

theorem test_hyp_OnlyTheStreamingCommandsTouchCrc :
    after (fun t => t.txrd) (execWord 0x2500 busy) = some (2, rsp 0 0x83) ∧ decode 0x2500 ≠ .command .crcInit ∧
    decode 0x2500 ≠ .command .sreset ∧ decode 0x2500 ≠ .command (.rd 0x01) ∧
    ∀ d, decode 0x2500 ≠ .command (.crcByte d) := by decide +kernel

/-- Two states that agree on one side only, and a command of each group. -/
theorem test_hyp_CommandGroupsDoNotShareState :
    (building.params = busy.params ∧ Instr.encPop.group = .encoder ∧ encodeSide building = encodeSide busy) ∧
    (Instr.decPop.group = .decoder ∧ decodeSide { busy with txunit := 0x11 } = decodeSide busy) ∧
    (Instr.crcVerify.group = .crcEngine ∧ { busy with txunit := 0x11 }.crc = busy.crc) ∧
    (∃ t, exec .encPop busy = .next t) ∧ (∃ t, exec .decPop busy = .next t) ∧ ∃ t, exec .crcVerify busy = .next t :=
  ⟨by decide, by decide, by decide, ⟨_, rfl⟩, ⟨_, rfl⟩, ⟨_, rfl⟩⟩

/-- Buffers that hold bytes, and a step that writes one more. -/
theorem test_hyp_StepKeepsTheBuffersCanonical :
    Memory.wf (bufferOf .rxbuf (receiving [0x01, 0x83])) = true ∧
    ∃ t, step { receiving [0x01, 0x83] with hostMoves := [.command 0x31C5] } = .next t := ⟨by decide, _, rfl⟩

/-- A state with a built frame and a decoded one meets the block invariant. -/
theorem test_busy_meets_the_block_invariant : BlockInv busy where
  txplen_le := by decide
  rxlen_le := by decide
  built _ := ⟨by decide, by decide, by decide +kernel, by decide⟩
  notBuilt h := absurd h (by decide)
  notBoth := by decide
  notDecoded _ h := absurd h (by decide)
  normal h := absurd h (by decide)
  exceptional _ :=
    ⟨⟨by decide, by decide, by decide, by decide +kernel, by decide +kernel, by decide, by decide +kernel, by decide +kernel⟩,
      by decide, by decide +kernel, by decide, fun _ => by decide⟩
  written
    | .txpay => by decide +kernel
    | .rxbuf => by decide +kernel
  canonical
    | .txpay => by decide
    | .rxbuf => by decide
  inRange
    | .txpay => by decide
    | .rxbuf => by decide
  err_ne_reserved := by decide
  rsp_ne_reserved _ h := absurd h (by simp [busy, building, small, State.resetWith])

theorem test_hyp_StatusBitsAreTheListedFields : BlockInv busy := test_busy_meets_the_block_invariant

theorem test_hyp_BuiltFrameIsTheFrameOfTheStaging :
    busy.txplen.toNat ≤ maxPayload busy ∧ BlockInv busy ∧ busy.txvalid = true :=
  ⟨by decide, test_busy_meets_the_block_invariant, rfl⟩

theorem test_hyp_StepKeepsTheBlockInvariant : BlockInv busy ∧ ∃ t, step busy = .next t :=
  ⟨test_busy_meets_the_block_invariant, _, rfl⟩

/-- The history of `busy`: one push into `TXPAY` and five into `RXBUF`. A step that starts a new sequence begins its history
again. -/
theorem test_hyp_StepKeepsAllItemsOfTheInvariant :
    LoggedInv { txpay := [0x02], rxbuf := [0x01, 0x83, 0x02, 0xC0, 0xF1] } busy ∧
    after (fun t => logAfter .rxbuf [0x01, 0x83, 0x02, 0xC0, 0xF1] { busy with hostMoves := [.command 0x3000] } t)
      (step { busy with hostMoves := [.command 0x3000] }) = some ([], rsp 0 0) where
  left :=
    { block := test_busy_meets_the_block_invariant
      item8 b :=
        match b with
        | .txpay =>
          ⟨by decide, fun i h =>
            have h' : i < 1 := h
            ⟨0x02, by obtain rfl : i = 0 := by omega
                      exact ⟨rfl, rfl⟩⟩⟩
        | .rxbuf =>
          ⟨by decide, fun i h =>
            have h' : i < 5 := h
            match i, h' with
            | 0, _ => ⟨_, rfl, rfl⟩
            | 1, _ => ⟨_, rfl, rfl⟩
            | 2, _ => ⟨_, rfl, rfl⟩
            | 3, _ => ⟨_, rfl, rfl⟩
            | 4, _ => ⟨_, rfl, rfl⟩⟩ }
  right := by decide +kernel

/-- Two states that differ in left-over bytes only, and a step from one. -/
theorem test_hyp_UnmeaningfulBytesCannotBeObserved :
    BlockInv small ∧ SameToTheHost small { small with rxbuf := cellsFrom 0 [0x01, 0x83], txpay := [(0, 0x02)] } ∧
    ∃ t, step small = .next t where
  left :=
    { txplen_le := by decide
      rxlen_le := by decide
      built h := absurd h (by decide)
      notBuilt _ := by decide
      notBoth := by decide
      notDecoded _ _ := by decide
      normal h := absurd h (by decide)
      exceptional h := absurd h (by decide)
      written b i h := absurd h (by cases b <;> exact Nat.not_lt_zero _)
      canonical b := by cases b <;> decide
      inRange b := by cases b <;> decide
      err_ne_reserved := by decide
      rsp_ne_reserved _ h := absurd h (by simp [small, State.resetWith]) }
  right := ⟨⟨by decide, fun b i h => absurd h (by cases b <;> exact Nat.not_lt_zero _)⟩, _, rfl⟩

end Sys2Proof.Tests
end

section
/-! PROOFS. The word of a well-formed command decodes to the command (rules R91, R92, R94). -/

namespace Sys2Proof

/-- Format `N`: the encoder's `IMM` is the zero the decoder asks for (R91). -/
@[simp] theorem decodeN_wordOf (i : Instr) (g f : BitVec 4) : decodeN i (wordOf g f 0#8) = .command i := by
  simp [decodeN]

/-- Format `B`: the operand byte comes back as it was put in (R91). -/
@[simp] theorem decodeB_wordOf (mk : Byte → Instr) (g f : BitVec 4) (d : Byte) :
    decodeB mk (wordOf g f d) = .command (mk d) := by
  simp [decodeB]

/-- Format `R`: a defined register number comes back as it was put in (R91, R94). -/
theorem decodeR_wordOf (mk : Byte → Instr) (g f : BitVec 4) (r : Byte) (h : r.toNat ≤ 0x0F) :
    decodeR mk (wordOf g f r) = .command (mk r) := by
  simp [decodeR, h]

/-- One case per format of R91; `RD` alone needs that the command is well formed. -/
theorem decode_encode (i : Instr) (h : i.wf = true) : decode (encode i) = .command i := by
  cases i with
  | nop | sreset | clrerr | crcInit | crcVerify | encStart | encBuild | encPop | encRewind | decStart | decParse
    | decPop | decRewind => simp [encode, decode]
  | crcByte d | encUnit d | encFc d | encPush d | decPush d => simp [encode, decode]
  | rd r =>
    have hr : r.toNat ≤ 0x0F := of_decide_eq_true h
    simp [encode, decode, decodeR_wordOf _ _ _ r hr]

end Sys2Proof
end

section
/-! PROOFS. What one step and one accepted word do (rules R10, R11, R94, R98, R99, R251), and that every accepted word ends in one
response (rules R12, R95). -/

namespace Sys2Proof.Machine

variable {s t : State} {w : Word} {rest : List HostMove}

/-! ### An accepted word -/

theorem execWord_of_command {i : Instr} (h : decode w = .command i) : execWord w s = exec i s := by
  unfold execWord
  rw [h]

theorem execWord_of_illegal {why : ReservedClass} (h : decode w = .illegal why) :
    execWord w s = .next (answerReserved s) := by
  unfold execWord
  rw [h]

theorem execWord_encode {i : Instr} (h : i.wf = true) : execWord (encode i) s = exec i s :=
  execWord_of_command (decode_encode i h)

/-- R99: `ILLEGAL` is code 6, and nothing but `ERR` changes. -/
theorem answerReserved_eq : answerReserved s = { s with err := 6, rsp := some { err := 6, data := 0 } } := rfl

/-! ### A step, for each of the host's moves -/

theorem step_of_idle (h : s.hostMoves = []) : step s = .next { s with rsp := none } := by
  unfold step fetch
  rw [h]

theorem step_of_rst (h : s.hostMoves = .rst :: rest) :
    step s = .next (resetByPin { s with hostMoves := rest }) := by
  unfold step fetch
  rw [h]

theorem step_of_command (h : s.hostMoves = .command w :: rest) :
    step s = execWord w { s with hostMoves := rest } := by
  unfold step fetch
  rw [h]

/-- R38 and R252: after `rst` the state is the reset state, but for the buffers and for what the host is still going to offer. -/
theorem resetByPin_eq : resetByPin s =
    { State.resetWith s.params with txpay := s.txpay, rxbuf := s.rxbuf, hostMoves := s.hostMoves } := rfl

/-! ### The end of every command -/

/-- The outcome is a next state made by `respond`, and nothing more was taken from the host. -/
def EndsInResponse (s : State) (o : Host.Outcome State Fault Refusal) : Prop :=
  ∃ (e : ErrCode) (data : Word) (u : State), o = .next (respond e data u) ∧ u.hostMoves = s.hostMoves

theorem endsInResponse_respond (e : ErrCode) (data : Word) {u : State} (h : u.hostMoves = s.hostMoves) :
    EndsInResponse s (.next (respond e data u)) := ⟨e, data, u, rfl, h⟩

theorem endsInResponse_answer (data : Word) {u : State} (h : u.hostMoves = s.hostMoves) :
    EndsInResponse s (.next (answer data u)) := endsInResponse_respond .ok data h

theorem endsInResponse_raise (e : ErrCode) (data : Word) {u : State} (h : u.hostMoves = s.hostMoves) :
    EndsInResponse s (.next (raise e data u)) := endsInResponse_respond e data h

theorem EndsInResponse.next {o : Host.Outcome State Fault Refusal} (h : EndsInResponse s o) :
    ∃ t r, o = .next t ∧ t.rsp = some r ∧ t.hostMoves = s.hostMoves := by
  obtain ⟨e, data, u, rfl, hmoves⟩ := h
  exact ⟨respond e data u, ⟨e.code, data⟩, rfl, respond_rsp u e data, hmoves⟩

/-- Whichever way a check of a command goes, the command ends in a response if both of its ways do. -/
theorem endsInResponse_ite {c : Prop} [Decidable c] {o o' : Host.Outcome State Fault Refusal} (h : EndsInResponse s o)
    (h' : EndsInResponse s o') : EndsInResponse s (if c then o else o') := by
  split
  · exact h
  · exact h'

theorem execRd_endsInResponse (r : Byte) : EndsInResponse s (execRd r s) := by
  unfold execRd
  split
  · exact endsInResponse_answer _ rfl
  · exact endsInResponse_raise .illegal 0 rfl

/-- The three checks in the order of R165, then the two kinds of frame that pass them. -/
theorem execDecParse_endsInResponse : EndsInResponse s (execDecParse s) :=
  endsInResponse_ite (endsInResponse_raise .malformed 0 rfl) <|
  endsInResponse_ite (endsInResponse_raise .checksum 0 rfl) <|
  endsInResponse_ite (endsInResponse_raise .malformed 0 rfl) <|
  endsInResponse_ite (endsInResponse_raise .mbexc _ rfl) (endsInResponse_answer _ rfl)

/-- The commands with a check of their own first, then those that answer `OK` in every state. -/
theorem exec_endsInResponse (i : Instr) (s : State) : EndsInResponse s (exec i s) := by
  cases i with
  | rd r => exact execRd_endsInResponse r
  | decParse => exact execDecParse_endsInResponse
  | encBuild => exact endsInResponse_ite (endsInResponse_raise .encoding 0 rfl) (endsInResponse_answer _ rfl)
  | encPop | decPop => exact endsInResponse_ite (endsInResponse_answer _ rfl) (endsInResponse_raise .empty 0 rfl)
  | nop | sreset | clrerr | crcInit | crcVerify | encStart | encRewind | decStart | decRewind =>
    exact endsInResponse_answer _ rfl
  | crcByte d | encUnit d | encFc d | encPush d | decPush d => exact endsInResponse_answer _ rfl

theorem execWord_endsInResponse (w : Word) (s : State) : EndsInResponse s (execWord w s) := by
  cases h : decode w with
  | command i =>
    rw [execWord_of_command h]
    exact exec_endsInResponse i s
  | illegal why =>
    rw [execWord_of_illegal h]
    exact endsInResponse_raise .illegal 0 rfl

/-! ### What a step can do -/

theorem step_total (s : State) : ∃ t, step s = .next t := by
  match h : s.hostMoves with
  | [] => exact ⟨_, step_of_idle h⟩
  | .rst :: rest => exact ⟨_, step_of_rst h⟩
  | .command w :: rest =>
    obtain ⟨t, _, hnext, _, _⟩ := (execWord_endsInResponse w { s with hostMoves := rest }).next
    exact ⟨t, (step_of_command h).trans hnext⟩

/-- R95: an idle step and `rst` leave no response, so a response comes from an accepted word. -/
theorem command_of_step_rsp {r : Response} (hstep : step s = .next t) (hrsp : t.rsp = some r) :
    ∃ w rest, s.hostMoves = .command w :: rest ∧ execWord w { s with hostMoves := rest } = .next t := by
  match h : s.hostMoves with
  | [] =>
    rw [step_of_idle h] at hstep
    cases hstep
    cases hrsp
  | .rst :: rest =>
    rw [step_of_rst h] at hstep
    cases hstep
    cases hrsp
  | .command w :: rest => exact ⟨w, rest, rfl, (step_of_command h).symm.trans hstep⟩

/-! ### The obligations -/

/-- Settles O9: every command ends in `respond`, and no other move of the host does. -/
theorem everyWordIsAnsweredOnce : Obligations.EveryWordIsAnsweredOnce :=
  ⟨fun w s => (execWord_endsInResponse w s).next, step_total, fun _ _ _ => command_of_step_rsp⟩

/-- Settles O10, by induction on the list of commands: each word decodes to its command when it is accepted. -/
theorem runOfWordsIsRunOfCommands : Obligations.RunOfWordsIsRunOfCommands := by
  intro is
  induction is with
  | nil => intro s _; rfl
  | cons i is ih =>
    intro s hwf
    obtain ⟨hi, his⟩ := List.forall_mem_cons.mp hwf
    have htail (t : State) : runWords (is.map encode) t = runInstrs is t := ih t his
    simp only [List.map_cons, runWords, runInstrs, execWord_encode hi, htail]

/-- Settles O7: one equation of `step` for each move of the host, and for a word one for each verdict of the decoder. -/
theorem stepTakesTheHostsNextMove : Obligations.StepTakesTheHostsNextMove := by
  refine ⟨fun s h => step_of_idle h, fun s rest h => ?rst, fun s w rest i h hd => ?command,
    fun s w rest why h hd => ?reserved⟩
  case rst => rw [step_of_rst h, resetByPin_eq]
  case command => rw [step_of_command h, execWord_of_command hd]
  case reserved => rw [step_of_command h, execWord_of_illegal hd, answerReserved_eq]

end Sys2Proof.Machine
end

section
/-! PROOFS. What one command can do to the state before its answer is given, said once (the rows of R35's table), and what one step
can do in the same terms. -/

namespace Sys2Proof.Machine

variable {s t u : State} {i : Instr}

/-! ### The states the two frame-making commands leave behind -/

/-- The state after a successful `ENC.BUILD` (R148). -/
def buildFrame (s : State) : State :=
  { s with
    txcrc := crc16 (s.txunit :: s.txfc :: stagedPayload s), txlen := s.txplen + 4, txrd := 0, txvalid := true }

/-- The state after `DEC.PARSE` of a normal frame (R164). -/
def takeNormal (s : State) : State := { takeFrame s with rxvalid := true }

/-- The state after `DEC.PARSE` of an exception response (R164, R167). -/
def takeException (s : State) : State :=
  { takeFrame s with
    rxexc := true, excode := memRead .rxbuf s 2, origfc := originalFunction (memRead .rxbuf s 1) }

/-- The received sequence passes the three checks of `DEC.PARSE` (R165). -/
structure Accepted (s : State) : Prop where
  four_le : 4 ≤ s.rxlen.toNat
  le_frameMax : s.rxlen.toNat ≤ frameMax s
  verifies : verify (received s) = true
  shaped : shape s.params.shape (memRead .rxbuf s 1) (receivedPayload s) = true

/-! ### One command -/

/-- `Effect s i u`: command `i` in state `s` may leave `u`, before the answer is written by `respond`. The case `nothing` is that of the
commands that only answer and of the pops answered `EMPTY`; no push is among them. -/
inductive Effect (s : State) : Instr → State → Prop
  | nothing (i : Instr) (hpush : ∀ b, pushedBy b i = none) : Effect s i s
  | sreset : Effect s .sreset (resetRegisters s)
  | clrerr : Effect s .clrerr { s with err := 0 }
  | crcInit : Effect s .crcInit { s with crc := 0xFFFF }
  | crcByte (d : Byte) : Effect s (.crcByte d) { s with crc := crcStep s.crc d }
  | encStart : Effect s .encStart (txInvalidate { s with txplen := 0 })
  | encUnit (d : Byte) : Effect s (.encUnit d) (txInvalidate { s with txunit := d })
  | encFc (d : Byte) : Effect s (.encFc d) (txInvalidate { s with txfc := d })
  | encPush (d : Byte) :
      Effect s (.encPush d) (txInvalidate { s with txpay := pushedTxpay d s, txplen := pushedTxplen s })
  | encBuildTooLong : Effect s .encBuild (txInvalidate s)
  | encBuild (hlen : s.txplen.toNat ≤ maxPayload s) : Effect s .encBuild (buildFrame s)
  | encPop (hvalid : s.txvalid = true) (hrd : s.txrd.toNat < s.txlen.toNat) :
      Effect s .encPop { s with txrd := s.txrd + 1 }
  | encRewind : Effect s .encRewind { s with txrd := 0 }
  | decStart : Effect s .decStart (rxInvalidate { s with rxlen := 0 })
  | decPush (d : Byte) :
      Effect s (.decPush d) (rxInvalidate { s with rxbuf := pushedRxbuf d s, rxlen := pushedRxlen s })
  | decParseRefused : Effect s .decParse (rxInvalidate s)
  | decParseException (hacc : Accepted s) (hbit : exceptionBit (memRead .rxbuf s 1) = true) :
      Effect s .decParse (takeException s)
  | decParseNormal (hacc : Accepted s) (hbit : exceptionBit (memRead .rxbuf s 1) = false) :
      Effect s .decParse (takeNormal s)
  | decPop (hvalid : s.rxvalid = true ∨ s.rxexc = true) (hrd : s.rxrd.toNat < s.rxplen.toNat) :
      Effect s .decPop { s with rxrd := s.rxrd + 1 }
  | decRewind : Effect s .decRewind { s with rxrd := 0 }

/-- The outcome is a next state: an effect of the command, then its answer. -/
def AnswersAfter (i : Instr) (s : State) (o : Host.Outcome State Fault Refusal) : Prop :=
  ∃ (e : ErrCode) (data : Word) (u : State), o = .next (respond e data u) ∧ Effect s i u

theorem Effect.answer (h : Effect s i u) (data : Word) : AnswersAfter i s (.next (answer data u)) :=
  ⟨.ok, data, u, rfl, h⟩

theorem Effect.raise (h : Effect s i u) (e : ErrCode) (data : Word) : AnswersAfter i s (.next (raise e data u)) :=
  ⟨e, data, u, rfl, h⟩

theorem execRd_answersAfter (r : Byte) (s : State) : AnswersAfter (.rd r) s (execRd r s) := by
  have hnothing : Effect s (.rd r) s := .nothing _ fun _ => rfl
  unfold execRd
  split
  · exact hnothing.answer _
  · exact hnothing.raise .illegal 0

theorem execEncBuild_answersAfter (s : State) : AnswersAfter .encBuild s (execEncBuild s) := by
  unfold execEncBuild
  split
  case isTrue => exact Effect.encBuildTooLong.raise .encoding 0
  case isFalse hlen => exact (Effect.encBuild (Nat.le_of_not_lt hlen)).answer _

theorem execEncPop_answersAfter (s : State) : AnswersAfter .encPop s (execEncPop s) := by
  unfold execEncPop
  split
  case isTrue h => exact (Effect.encPop h.1 h.2).answer _
  case isFalse => exact (Effect.nothing .encPop fun _ => rfl).raise .empty 0

theorem execDecPop_answersAfter (s : State) : AnswersAfter .decPop s (execDecPop s) := by
  unfold execDecPop
  split
  case isTrue h => exact (Effect.decPop h.1 h.2).answer _
  case isFalse => exact (Effect.nothing .decPop fun _ => rfl).raise .empty 0

/-- The checks in the order of R165; a sequence that passes all of them is accepted. -/
theorem execDecParse_answersAfter (s : State) : AnswersAfter .decParse s (execDecParse s) := by
  have hrefused : Effect s .decParse (rxInvalidate s) := .decParseRefused
  unfold execDecParse
  split
  case isTrue => exact hrefused.raise .malformed 0
  case isFalse hlen =>
  split
  case isTrue => exact hrefused.raise .checksum 0
  case isFalse hverify =>
  split
  case isTrue => exact hrefused.raise .malformed 0
  case isFalse hshape =>
  have hacc : Accepted s := ⟨by omega, by omega, not_not.mp hverify, not_not.mp hshape⟩
  split
  case isTrue hbit => exact (Effect.decParseException hacc hbit).raise .mbexc _
  case isFalse hbit => exact (Effect.decParseNormal hacc (Bool.eq_false_iff.mpr hbit)).answer _

/-- Every command has one of the listed effects and then answers. -/
theorem exec_answersAfter (i : Instr) (s : State) : AnswersAfter i s (exec i s) := by
  cases i with
  | nop => exact (Effect.nothing .nop fun _ => rfl).answer _
  | sreset => exact Effect.sreset.answer _
  | clrerr => exact Effect.clrerr.answer _
  | rd r => exact execRd_answersAfter r s
  | crcInit => exact Effect.crcInit.answer _
  | crcByte d => exact (Effect.crcByte d).answer _
  | crcVerify => exact (Effect.nothing .crcVerify fun _ => rfl).answer _
  | encStart => exact Effect.encStart.answer _
  | encUnit d => exact (Effect.encUnit d).answer _
  | encFc d => exact (Effect.encFc d).answer _
  | encPush d => exact (Effect.encPush d).answer _
  | encBuild => exact execEncBuild_answersAfter s
  | encPop => exact execEncPop_answersAfter s
  | encRewind => exact Effect.encRewind.answer _
  | decStart => exact Effect.decStart.answer _
  | decPush d => exact (Effect.decPush d).answer _
  | decParse => exact execDecParse_answersAfter s
  | decPop => exact execDecPop_answersAfter s
  | decRewind => exact Effect.decRewind.answer _

/-- The inversion of `exec`: the next state is an effect of the command, answered. -/
theorem effect_of_exec (h : exec i s = .next t) : ∃ e data u, t = respond e data u ∧ Effect s i u := by
  obtain ⟨e, data, u, hexec, heff⟩ := exec_answersAfter i s
  cases h.symm.trans hexec
  exact ⟨e, data, u, rfl, heff⟩

/-! ### One step -/

/-- The command whose effect a step from `s` has on the registers and buffers: `rst` acts as `SRESET` does (R252), an idle step and a
reserved word as `NOP` does (R11, R99). -/
def actsAs (s : State) : Instr :=
  match s.hostMoves with
  | [] => .nop
  | .rst :: _ => .sreset
  | .command w :: _ =>
    match decode w with
    | .command i => i
    | .illegal _ => .nop

section Moves

variable {w : Word} {rest : List HostMove}

theorem actsAs_idle (h : s.hostMoves = []) : actsAs s = .nop := by simp [actsAs, h]

theorem actsAs_rst (h : s.hostMoves = .rst :: rest) : actsAs s = .sreset := by simp [actsAs, h]

theorem actsAs_command (h : s.hostMoves = .command w :: rest) (hd : decode w = .command i) : actsAs s = i := by
  simp [actsAs, h, hd]

theorem actsAs_reserved {why : ReservedClass} (h : s.hostMoves = .command w :: rest) (hd : decode w = .illegal why) :
    actsAs s = .nop := by
  simp [actsAs, h, hd]

/-- `s` with the host's next move taken. -/
def moveTaken (s : State) : State := { s with hostMoves := s.hostMoves.tail }

theorem moveTaken_idle (h : s.hostMoves = []) : moveTaken s = s := by
  cases s
  cases h
  rfl

theorem moveTaken_cons {m : HostMove} (h : s.hostMoves = m :: rest) : moveTaken s = { s with hostMoves := rest } := by
  simp [moveTaken, h]

end Moves

/-- The step's push is the push of the command it acts as. -/
theorem pushedByStep_eq_pushedBy (b : Config.Buffer) (s : State) : pushedByStep b s = pushedBy b (actsAs s) := by
  match h : s.hostMoves with
  | [] => rw [pushedByStep_idle b s h, actsAs_idle h, pushedBy]
  | .rst :: rest => rw [pushedByStep_rst b s rest h, actsAs_rst h, pushedBy]
  | .command w :: rest =>
    cases hd : decode w with
    | command i => rw [pushedByStep_command b s w rest i h hd, actsAs_command h hd]
    | illegal why => rw [pushedByStep_reserved b s w rest why h hd, actsAs_reserved h hd, pushedBy]

/-- How a step ends: with no answer on the ports, or with one. -/
def Ends (u t : State) : Prop := t = { u with rsp := none } ∨ ∃ e data, t = respond e data u

/-- The inversion of `step`: an effect of one command on the state with the host's move taken, then the response ports. -/
theorem effect_of_step (h : step s = .next t) : ∃ u, Effect (moveTaken s) (actsAs s) u ∧ Ends u t := by
  match hmoves : s.hostMoves with
  | [] =>
    rw [step_of_idle hmoves] at h
    cases h
    rw [moveTaken_idle hmoves, actsAs_idle hmoves]
    exact ⟨s, .nothing _ fun _ => rfl, .inl rfl⟩
  | .rst :: rest =>
    rw [step_of_rst hmoves] at h
    cases h
    rw [moveTaken_cons hmoves, actsAs_rst hmoves]
    exact ⟨_, .sreset, .inl rfl⟩
  | .command w :: rest =>
    rw [step_of_command hmoves] at h
    rw [moveTaken_cons hmoves]
    cases hdecode : decode w with
    | command i =>
      rw [execWord_of_command hdecode] at h
      obtain ⟨e, data, u, ht, heff⟩ := effect_of_exec h
      rw [actsAs_command hmoves hdecode]
      exact ⟨u, heff, .inr ⟨e, data, ht⟩⟩
    | illegal why =>
      rw [execWord_of_illegal hdecode] at h
      cases h
      rw [actsAs_reserved hmoves hdecode]
      exact ⟨_, .nothing _ fun _ => rfl, .inr ⟨.illegal, 0, rfl⟩⟩

end Sys2Proof.Machine
end

section
/-! PROOFS. What one command and one step can do to a buffer and its counter, and the canonical form of the buffers
(rules R24, R36, R62, R69). -/

namespace Sys2Proof.Machine

variable {s t u : State} {i : Instr} {b : Config.Buffer}

/-! ### What the end of a step leaves alone -/

theorem Ends.params (h : Ends u t) : t.params = u.params := by
  rcases h with rfl | ⟨e, data, rfl⟩ <;> rfl

theorem Ends.encodeSide (h : Ends u t) : encodeSide t = encodeSide u := by
  rcases h with rfl | ⟨e, data, rfl⟩ <;> rfl

theorem Ends.decodeSide (h : Ends u t) : decodeSide t = decodeSide u := by
  rcases h with rfl | ⟨e, data, rfl⟩ <;> rfl

theorem Effect.params (h : Effect s i u) : u.params = s.params := by cases h <;> rfl

theorem params_of_step (h : step s = .next t) : t.params = s.params := by
  obtain ⟨u, heff, hends⟩ := effect_of_step h
  exact hends.params.trans heff.params

/-! ### A push, for either buffer -/

/-- The counter of a buffer after a push into it (R24, R147, R163). -/
def pushedCount (b : Config.Buffer) (s : State) : Nat :=
  match b with
  | .txpay => (pushedTxplen s).toNat
  | .rxbuf => (pushedRxlen s).toNat

/-- The contents of a buffer after a push into it (R69, R147, R163). -/
def pushedBuffer (b : Config.Buffer) (d : Byte) (s : State) : Memory :=
  match b with
  | .txpay => pushedTxpay d s
  | .rxbuf => pushedRxbuf d s

/-- R24: one more, saturating one above the buffer's size. -/
theorem pushedCount_eq (b : Config.Buffer) (s : State) :
    pushedCount b s = if bufferCounter b s ≤ bufferSize b s then bufferCounter b s + 1 else bufferCounter b s := by
  cases b with
  | txpay => exact pushedTxplen_toNat s
  | rxbuf => exact pushedRxlen_toNat s

/-- R69: the byte stands at the index the counter had, and is dropped when the buffer is full. -/
theorem lookup_pushedBuffer (b : Config.Buffer) (d : Byte) (s : State) (j : Nat) :
    Memory.lookup (pushedBuffer b d s) j =
      if bufferCounter b s < bufferSize b s ∧ j = bufferCounter b s then some d
      else Memory.lookup (bufferOf b s) j := by
  cases b with
  | txpay => exact lookup_pushedTxpay s d j
  | rxbuf => exact lookup_pushedRxbuf s d j

theorem wf_pushedBuffer (d : Byte) (h : Memory.wf (bufferOf b s) = true) : Memory.wf (pushedBuffer b d s) = true := by
  cases b with
  | txpay => exact wf_pushedTxpay s d h
  | rxbuf => exact wf_pushedRxbuf s d h

/-- A byte is written only below the buffer's size. -/
theorem pushedBuffer_eq (b : Config.Buffer) (d : Byte) (s : State) :
    pushedBuffer b d s =
      if bufferCounter b s < bufferSize b s then memWrite b s (bufferCounter b s) d else bufferOf b s := by
  cases b <;> rfl

theorem within_pushedBuffer (d : Byte) (h : Memory.within (bufferSize b s) (bufferOf b s) = true) :
    Memory.within (bufferSize b s) (pushedBuffer b d s) = true := by
  rw [pushedBuffer_eq]
  split
  case isTrue hroom => exact within_memWrite b s _ d hroom h
  case isFalse => exact h

/-! ### What can happen to a buffer -/

/-- `BufferMove b s t p`: from `s` to `t` the buffer `b` was pushed the byte in `p`, if there is one. -/
inductive BufferMove (b : Config.Buffer) (s t : State) : Option Byte → Prop
  | kept (hcounter : bufferCounter b t = bufferCounter b s) (hbytes : bufferOf b t = bufferOf b s) :
      BufferMove b s t none
  | emptied (hcounter : bufferCounter b t = 0) (hbytes : bufferOf b t = bufferOf b s) : BufferMove b s t none
  | pushed (d : Byte) (hcounter : bufferCounter b t = pushedCount b s) (hbytes : bufferOf b t = pushedBuffer b d s) :
      BufferMove b s t (some d)

/-- `SRESET` and the side's `START` empty a buffer, the side's `PUSH` pushes, and no other command touches it. -/
theorem Effect.bufferMove (b : Config.Buffer) (h : Effect s i u) : BufferMove b s u (pushedBy b i) := by
  cases b with
  | txpay =>
    cases h with
    | nothing i hpush => rw [hpush]; exact .kept rfl rfl
    | sreset | encStart => exact .emptied rfl rfl
    | encPush d => exact .pushed d rfl rfl
    | _ => exact .kept rfl rfl
  | rxbuf =>
    cases h with
    | nothing i hpush => rw [hpush]; exact .kept rfl rfl
    | sreset | decStart => exact .emptied rfl rfl
    | decPush d => exact .pushed d rfl rfl
    | _ => exact .kept rfl rfl

/-- Taking the host's move touches no buffer. -/
theorem BufferMove.of_moveTaken {p : Option Byte} (h : BufferMove b (moveTaken s) t p) : BufferMove b s t p := by
  cases b <;> cases h with
  | kept hcounter hbytes => exact .kept hcounter hbytes
  | emptied hcounter hbytes => exact .emptied hcounter hbytes
  | pushed d hcounter hbytes => exact .pushed d hcounter hbytes

/-- Writing the response ports touches no buffer. -/
theorem BufferMove.of_ends {p : Option Byte} (hends : Ends u t) (h : BufferMove b s u p) : BufferMove b s t p := by
  have hcounter : bufferCounter b t = bufferCounter b u := by
    cases b with
    | txpay => exact congrArg (·.txplen.toNat) hends.encodeSide
    | rxbuf => exact congrArg (·.rxlen.toNat) hends.decodeSide
  have hbytes : bufferOf b t = bufferOf b u := by
    cases b with
    | txpay => exact congrArg EncodeSide.txpay hends.encodeSide
    | rxbuf => exact congrArg DecodeSide.rxbuf hends.decodeSide
  cases h with
  | kept hc hm => exact .kept (hcounter.trans hc) (hbytes.trans hm)
  | emptied hc hm => exact .emptied (hcounter.trans hc) (hbytes.trans hm)
  | pushed d hc hm => exact .pushed d (hcounter.trans hc) (hbytes.trans hm)

theorem bufferMove_of_step (b : Config.Buffer) (h : step s = .next t) : BufferMove b s t (pushedByStep b s) := by
  obtain ⟨u, heff, hends⟩ := effect_of_step h
  rw [pushedByStep_eq_pushedBy]
  exact (heff.bufferMove b).of_moveTaken.of_ends hends

theorem BufferMove.wf {p : Option Byte} (h : BufferMove b s t p) (hwf : Memory.wf (bufferOf b s) = true) :
    Memory.wf (bufferOf b t) = true := by
  cases h with
  | kept _ hbytes | emptied _ hbytes => rwa [hbytes]
  | pushed d _ hbytes =>
    rw [hbytes]
    exact wf_pushedBuffer d hwf

/-- Settles O53: the only write to a buffer is a push, and `MemWrite` keeps the indices strictly rising. -/
theorem stepKeepsTheBuffersCanonical : Obligations.StepKeepsTheBuffersCanonical :=
  fun _ _ hstep b hwf => (bufferMove_of_step b hstep).wf hwf

end Sys2Proof.Machine
end

section
/-! PROOFS. The block invariant of rule R39 in four parts (each buffer, the built frame, the decoded frame, the codes of R220), and that
every step keeps each part. -/

namespace Sys2Proof.Machine

variable {s t u : State} {i : Instr} {b : Config.Buffer}

/-! ### The four parts -/

/-- One buffer and its counter (R24, R36). -/
structure BufferInv (b : Config.Buffer) (s : State) : Prop where
  counter_le : bufferCounter b s ≤ bufferSize b s + 1
  written : ∀ i, i < meaningful b s → (Memory.lookup (bufferOf b s) i).isSome = true
  canonical : Memory.wf (bufferOf b s) = true
  inRange : Memory.within (bufferSize b s) (bufferOf b s) = true

/-- The built frame: R39 items 2 and 3. -/
structure TxFrameInv (s : State) : Prop where
  built : s.txvalid = true → BuiltFrame s
  notBuilt : s.txvalid = false → s.txlen = 0 ∧ s.txrd = 0 ∧ s.txcrc = 0

/-- What R39 item 7 says of a state with a decoded exception response, its frame apart. -/
structure ExceptionFields (s : State) : Prop where
  bit : exceptionBit s.rxfc = true
  excode : s.excode = memRead .rxbuf s 2
  origfc : s.origfc = s.rxfc &&& 0x7F
  lengths : s.params.shape = .default → s.rxlen = 5 ∧ s.rxplen = 1

/-- The decoded frame: R39 items 4 to 7. -/
structure RxFrameInv (s : State) : Prop where
  notBoth : ¬ (s.rxvalid = true ∧ s.rxexc = true)
  notDecoded : s.rxvalid = false → s.rxexc = false →
    s.rxunit = 0 ∧ s.rxfc = 0 ∧ s.excode = 0 ∧ s.origfc = 0 ∧ s.rxplen = 0 ∧ s.rxrd = 0
  normal : s.rxvalid = true → DecodedFrame s ∧ exceptionBit s.rxfc = false ∧ s.excode = 0 ∧ s.origfc = 0
  exceptional : s.rxexc = true → DecodedFrame s ∧ ExceptionFields s

/-- Code 7 stands neither in `ERR` nor in the response (R220). -/
structure CodesInv (s : State) : Prop where
  err : s.err ≠ 7
  rsp : ∀ r, s.rsp = some r → r.err ≠ 7

theorem blockInv_iff :
    BlockInv s ↔ (∀ b, BufferInv b s) ∧ TxFrameInv s ∧ RxFrameInv s ∧ CodesInv s := by
  constructor
  · intro h
    refine ⟨fun b => ⟨?_, h.written b, h.canonical b, h.inRange b⟩, ⟨h.built, h.notBuilt⟩,
      ⟨h.notBoth, h.notDecoded, h.normal, fun hexc => ?_⟩, h.err_ne_reserved, h.rsp_ne_reserved⟩
    · cases b with
      | txpay => exact h.txplen_le
      | rxbuf => exact h.rxlen_le
    · obtain ⟨hframe, hbit, hcode, horig, hlengths⟩ := h.exceptional hexc
      exact ⟨hframe, hbit, hcode, horig, hlengths⟩
  · rintro ⟨hbuf, htx, hrx, hcodes⟩
    exact
      { txplen_le := (hbuf .txpay).counter_le
        rxlen_le := (hbuf .rxbuf).counter_le
        built := htx.built
        notBuilt := htx.notBuilt
        notBoth := hrx.notBoth
        notDecoded := hrx.notDecoded
        normal := hrx.normal
        exceptional := fun hexc =>
          have ⟨hframe, hfields⟩ := hrx.exceptional hexc
          ⟨hframe, hfields.bit, hfields.excode, hfields.origfc, hfields.lengths⟩
        written := fun b => (hbuf b).written
        canonical := fun b => (hbuf b).canonical
        inRange := fun b => (hbuf b).inRange
        err_ne_reserved := hcodes.err
        rsp_ne_reserved := hcodes.rsp }

/-! ### Each buffer -/

theorem bufferSize_congr (b : Config.Buffer) (h : t.params = s.params) : bufferSize b t = bufferSize b s := by
  cases b with
  | txpay => exact maxPayload_congr t s h
  | rxbuf => exact congrArg (· + 4) (maxPayload_congr t s h)

/-- With the counter at 0 no byte is meaningful (R36). -/
theorem meaningful_eq_zero (h : bufferCounter b s = 0) : meaningful b s = 0 := by simp [meaningful, h]

theorem not_lt_meaningful {i : Nat} (h : bufferCounter b s = 0) : ¬ i < meaningful b s := by
  simp [meaningful_eq_zero h]

/-- A push writes the byte that becomes meaningful (R69). -/
theorem BufferInv.written_pushedBuffer (h : BufferInv b s) (d : Byte) {i : Nat}
    (hi : i < min (pushedCount b s) (bufferSize b s)) : (Memory.lookup (pushedBuffer b d s) i).isSome = true := by
  rw [pushedCount_eq] at hi
  rw [lookup_pushedBuffer]
  split
  case isTrue => rfl
  case isFalse hnew =>
    refine h.written i ?_
    unfold meaningful
    split at hi <;> omega

theorem BufferInv.of_move {p : Option Byte} (h : BufferInv b s) (hmove : BufferMove b s t p)
    (hparams : t.params = s.params) : BufferInv b t := by
  have hsize : bufferSize b t = bufferSize b s := bufferSize_congr b hparams
  have hle := h.counter_le
  have hinRange : Memory.within (bufferSize b t) (bufferOf b t) = true := by
    cases hmove with
    | kept _ hbytes | emptied _ hbytes => rw [hsize, hbytes]; exact h.inRange
    | pushed d _ hbytes => rw [hsize, hbytes]; exact within_pushedBuffer d h.inRange
  refine ⟨?_, fun i hi => ?_, hmove.wf h.canonical, hinRange⟩
  · cases hmove with
    | kept hcounter _ => rw [hcounter, hsize]; exact hle
    | emptied hcounter _ => rw [hcounter]; exact Nat.zero_le _
    | pushed d hcounter _ => rw [hcounter, hsize, pushedCount_eq]; split <;> omega
  · unfold meaningful at hi
    cases hmove with
    | kept hcounter hbytes => rw [hcounter, hsize] at hi; rw [hbytes]; exact h.written i hi
    | emptied hcounter _ => rw [hcounter] at hi; omega
    | pushed d hcounter hbytes => rw [hcounter, hsize] at hi; rw [hbytes]; exact h.written_pushedBuffer d hi

/-! ### The built frame -/

/-- The built frame's part speaks of the parameters and the encode side only. -/
theorem TxFrameInv.congr (h : TxFrameInv s) (hparams : t.params = s.params) (hside : encodeSide t = encodeSide s) :
    TxFrameInv t := by
  cases s
  cases t
  cases hparams
  cases hside
  exact ⟨fun hv => ⟨(h.built hv).txplen, (h.built hv).txlen, (h.built hv).txcrc, (h.built hv).txrd⟩, h.notBuilt⟩

/-- R142: with the built frame discarded there is nothing left to say. -/
theorem txFrameInv_txInvalidate (s : State) : TxFrameInv (txInvalidate s) :=
  ⟨fun h => absurd h Bool.false_ne_true, fun _ => ⟨rfl, rfl, rfl⟩⟩

theorem txFrameInv_buildFrame (hlen : s.txplen.toNat ≤ maxPayload s) : TxFrameInv (buildFrame s) where
  built _ :=
    { txplen := hlen
      txlen := by
        have := maxPayload_le s
        change (s.txplen + 4).toNat = s.txplen.toNat + 4
        rw [BitVec.toNat_add]
        exact Nat.mod_eq_of_lt (by simp; omega)
      txcrc := rfl
      txrd := Nat.zero_le _ }
  notBuilt h := absurd h.symm Bool.false_ne_true

/-- The read pointer may move anywhere in the built frame, and back to 0 always. -/
theorem TxFrameInv.of_txrd (h : TxFrameInv s) (rd : Count)
    (hrd : rd = 0 ∨ s.txvalid = true ∧ rd.toNat ≤ s.txlen.toNat) : TxFrameInv { s with txrd := rd } where
  built hv :=
    { txplen := (h.built hv).txplen
      txlen := (h.built hv).txlen
      txcrc := (h.built hv).txcrc
      txrd := by
        rcases hrd with rfl | ⟨_, hle⟩
        · exact Nat.zero_le _
        · exact hle }
  notBuilt hv := by
    obtain ⟨hlen, _, hcrc⟩ := h.notBuilt hv
    rcases hrd with rfl | ⟨hvalid, _⟩
    · exact ⟨hlen, rfl, hcrc⟩
    · exact absurd (hvalid.symm.trans hv) Bool.noConfusion

/-- A read pointer below its limit moves on by one without a wrap. -/
theorem Count.toNat_add_one {n m : Count} (h : n.toNat < m.toNat) : (n + 1).toNat = n.toNat + 1 := by
  have := m.isLt
  rw [BitVec.toNat_add]
  exact Nat.mod_eq_of_lt (by simp; omega)

theorem Effect.txFrameInv (heff : Effect s i u) (h : TxFrameInv s) : TxFrameInv u := by
  cases heff with
  | sreset => exact (txFrameInv_txInvalidate (resetRegisters s)).congr rfl rfl
  | encStart | encUnit | encFc | encPush | encBuildTooLong => exact txFrameInv_txInvalidate _
  | encBuild hlen => exact txFrameInv_buildFrame hlen
  | encPop hvalid hrd => exact h.of_txrd _ (.inr ⟨hvalid, Count.toNat_add_one hrd ▸ hrd⟩)
  | encRewind => exact h.of_txrd 0 (.inl rfl)
  | _ => exact h.congr rfl rfl

/-! ### The decoded frame -/

/-- The decoded frame's part speaks of the parameters and the decode side only. -/
theorem RxFrameInv.congr (h : RxFrameInv s) (hparams : t.params = s.params) (hside : decodeSide t = decodeSide s) :
    RxFrameInv t := by
  have hframe : DecodedFrame s → DecodedFrame t := by
    cases s
    cases t
    cases hparams
    cases hside
    exact fun d => ⟨d.four_le, d.le_frameMax, d.rxplen, d.rxunit, d.rxfc, d.rxrd, d.verifies, d.shaped⟩
  cases s
  cases t
  cases hparams
  cases hside
  exact
    { notBoth := h.notBoth
      notDecoded := h.notDecoded
      normal := fun hv => ⟨hframe (h.normal hv).1, (h.normal hv).2⟩
      exceptional := fun hv =>
        have ⟨hd, hfields⟩ := h.exceptional hv
        ⟨hframe hd, hfields.bit, hfields.excode, hfields.origfc, hfields.lengths⟩ }

/-- R161: with the decoded frame discarded there is nothing left to say. -/
theorem rxFrameInv_rxInvalidate (s : State) : RxFrameInv (rxInvalidate s) where
  notBoth h := absurd h.1 Bool.false_ne_true
  notDecoded _ _ := ⟨rfl, rfl, rfl, rfl, rfl, rfl⟩
  normal h := absurd h Bool.false_ne_true
  exceptional h := absurd h Bool.false_ne_true

theorem Accepted.rxplen (h : Accepted s) : (s.rxlen - 4).toNat = s.rxlen.toNat - 4 :=
  BitVec.toNat_sub_of_le (BitVec.le_def.mpr h.four_le)

theorem Accepted.decodedFrame_takeNormal (h : Accepted s) : DecodedFrame (takeNormal s) :=
  ⟨h.four_le, h.le_frameMax, h.rxplen, rfl, rfl, Nat.zero_le _, h.verifies, h.shaped⟩

theorem Accepted.decodedFrame_takeException (h : Accepted s) : DecodedFrame (takeException s) :=
  ⟨h.four_le, h.le_frameMax, h.rxplen, rfl, rfl, Nat.zero_le _, h.verifies, h.shaped⟩

theorem Accepted.rxFrameInv_takeNormal (h : Accepted s) (hbit : exceptionBit (memRead .rxbuf s 1) = false) :
    RxFrameInv (takeNormal s) where
  notBoth h := absurd h.2 Bool.false_ne_true
  notDecoded h := absurd h.symm Bool.false_ne_true
  normal _ := ⟨h.decodedFrame_takeNormal, hbit, rfl, rfl⟩
  exceptional h := absurd h Bool.false_ne_true

/-- R166: under the default `SHAPE` the payload of an exception response is one byte long. -/
theorem Accepted.rxlen_of_exception (h : Accepted s) (hbit : exceptionBit (memRead .rxbuf s 1) = true)
    (hshape : s.params.shape = .default) : s.rxlen = 5 := by
  have hshaped := h.shaped
  have h4 := h.four_le
  simp [hshape, shape, defaultShape, hbit, receivedPayload] at hshaped
  exact BitVec.eq_of_toNat_eq (show s.rxlen.toNat = 5 by omega)

theorem Accepted.rxFrameInv_takeException (h : Accepted s) (hbit : exceptionBit (memRead .rxbuf s 1) = true) :
    RxFrameInv (takeException s) where
  notBoth h := absurd h.1 Bool.false_ne_true
  notDecoded _ h := absurd h.symm Bool.false_ne_true
  normal h := absurd h Bool.false_ne_true
  exceptional _ :=
    { left := h.decodedFrame_takeException
      right :=
        { bit := hbit
          excode := rfl
          origfc := rfl
          lengths := fun hshape => by
            have h5 : s.rxlen = 5 := h.rxlen_of_exception hbit hshape
            exact ⟨h5, show s.rxlen - 4 = 1 by rw [h5]; rfl⟩ } }

theorem DecodedFrame.of_rxrd (h : DecodedFrame s) (rd : Count) (hrd : rd.toNat ≤ s.rxplen.toNat) :
    DecodedFrame { s with rxrd := rd } :=
  ⟨h.four_le, h.le_frameMax, h.rxplen, h.rxunit, h.rxfc, hrd, h.verifies, h.shaped⟩

/-- The read pointer may move anywhere in the decoded payload, and back to 0 always. -/
theorem RxFrameInv.of_rxrd (h : RxFrameInv s) (rd : Count)
    (hrd : rd = 0 ∨ (s.rxvalid = true ∨ s.rxexc = true) ∧ rd.toNat ≤ s.rxplen.toNat) :
    RxFrameInv { s with rxrd := rd } := by
  have hle : rd.toNat ≤ s.rxplen.toNat := by
    rcases hrd with rfl | ⟨_, hle⟩
    · exact Nat.zero_le _
    · exact hle
  refine ⟨h.notBoth, fun hv he => ?_, fun hv => ?_, fun he => ?_⟩
  · obtain ⟨hunit, hfc, hcode, horig, hplen, _⟩ := h.notDecoded hv he
    rcases hrd with rfl | ⟨hvalid | hexc, _⟩
    · exact ⟨hunit, hfc, hcode, horig, hplen, rfl⟩
    · exact absurd (hvalid.symm.trans hv) Bool.noConfusion
    · exact absurd (hexc.symm.trans he) Bool.noConfusion
  · exact ⟨(h.normal hv).1.of_rxrd rd hle, (h.normal hv).2⟩
  · obtain ⟨hframe, hfields⟩ := h.exceptional he
    exact ⟨hframe.of_rxrd rd hle, hfields.bit, hfields.excode, hfields.origfc, hfields.lengths⟩

theorem Effect.rxFrameInv (heff : Effect s i u) (h : RxFrameInv s) : RxFrameInv u := by
  cases heff with
  | sreset => exact (rxFrameInv_rxInvalidate (resetRegisters s)).congr rfl rfl
  | decStart | decPush | decParseRefused => exact rxFrameInv_rxInvalidate _
  | decParseException hacc hbit => exact hacc.rxFrameInv_takeException hbit
  | decParseNormal hacc hbit => exact hacc.rxFrameInv_takeNormal hbit
  | decPop hvalid hrd => exact h.of_rxrd _ (.inr ⟨hvalid, Count.toNat_add_one hrd ▸ hrd⟩)
  | decRewind => exact h.of_rxrd 0 (.inl rfl)
  | _ => exact h.congr rfl rfl

/-! ### The codes -/

/-- R220: code 7 is the code of no error. -/
theorem ErrCode.code_ne_reserved (e : ErrCode) : e.code ≠ 7 := by cases e <;> decide

/-- Before the answer a command writes nothing but 0 to `ERR`. -/
theorem Effect.err (heff : Effect s i u) : u.err = s.err ∨ u.err = 0 := by
  cases heff with
  | sreset | clrerr => exact .inr rfl
  | _ => exact .inl rfl

theorem Ends.codesInv (hends : Ends u t) (h : u.err ≠ 7) : CodesInv t := by
  rcases hends with rfl | ⟨e, data, rfl⟩
  · exact ⟨h, fun r hr => absurd hr.symm (Option.some_ne_none r)⟩
  · refine ⟨?_, fun r hr => ?_⟩
    · rw [respond_err]
      split
      · exact h
      · exact e.code_ne_reserved
    · cases hr
      exact e.code_ne_reserved

/-! ### The whole -/

/-- Settles O55: an effect of one command keeps each of the four parts, and the end of the step keeps them too. -/
theorem stepKeepsTheBlockInvariant : Obligations.StepKeepsTheBlockInvariant := by
  intro s t hinv hstep
  obtain ⟨hbuf, htx, hrx, hcodes⟩ := blockInv_iff.mp hinv
  obtain ⟨u, heff, hends⟩ := effect_of_step hstep
  have herr : u.err ≠ 7 := by
    rcases heff.err with h | h
    · rw [h]; exact hcodes.err
    · rw [h]; decide
  exact blockInv_iff.mpr
    ⟨fun b => (hbuf b).of_move (bufferMove_of_step b hstep) (params_of_step hstep),
      (heff.txFrameInv (htx.congr rfl rfl)).congr hends.params hends.encodeSide,
      (heff.rxFrameInv (hrx.congr rfl rfl)).congr hends.params hends.decodeSide, hends.codesInv herr⟩

/-- The reset state meets the invariant whatever the host is going to offer (R38). -/
theorem blockInv_resetWith (p : Config.Params) (moves : List HostMove) :
    BlockInv { State.resetWith p with hostMoves := moves } := by
  refine blockInv_iff.mpr ⟨fun b => ?_, (txFrameInv_txInvalidate (State.resetWith p)).congr rfl rfl,
    (rxFrameInv_rxInvalidate (State.resetWith p)).congr rfl rfl, ⟨show (0 : BitVec 3) ≠ 7 by decide, fun r hr => ?_⟩⟩
  · cases b with
    | txpay | rxbuf => exact ⟨Nat.zero_le _, fun _ hi => absurd hi (not_lt_meaningful rfl), rfl, rfl⟩
  · exact absurd hr.symm (Option.some_ne_none r)

/-- Settles O56: no buffer byte is meaningful, no frame is built or decoded, and `ERR` is 0. -/
theorem resetMeetsTheBlockInvariant : Obligations.ResetMeetsTheBlockInvariant :=
  ⟨fun p => blockInv_resetWith p [], rfl⟩

end Sys2Proof.Machine
end

section
/-! PROOFS. Item 8 of rule R39: the counter of a buffer and its meaningful bytes are those of the pushes since the counter was last 0, after
every step and so in every reachable state. -/

namespace Sys2Proof.Machine

variable {s t : State} {b : Config.Buffer} {l : PushLog} {log : List Byte}

/-- Where the counter is 0 item 8 holds with an empty history. -/
theorem pushedSinceZero_nil (h : bufferCounter b s = 0) : PushedSinceZero b [] s :=
  ⟨by simp [h], fun _ hi => absurd hi (not_lt_meaningful h)⟩

theorem PushedSinceZero.congr (h : PushedSinceZero b log s) (hparams : t.params = s.params)
    (hcounter : bufferCounter b t = bufferCounter b s) (hbytes : bufferOf b t = bufferOf b s) :
    PushedSinceZero b log t := by
  have hsize : bufferSize b t = bufferSize b s := bufferSize_congr b hparams
  refine ⟨by rw [hcounter, hsize]; exact h.counter, fun i hi => ?_⟩
  rw [hbytes]
  exact h.byPush i (by simpa [meaningful, hcounter, hsize] using hi)

/-- A push adds its byte to the history and, where there is room, to the buffer at the index the history gives it. -/
theorem PushedSinceZero.push (h : PushedSinceZero b log s) (d : Byte) (hparams : t.params = s.params)
    (hcounter : bufferCounter b t = pushedCount b s) (hbytes : bufferOf b t = pushedBuffer b d s) :
    PushedSinceZero b (log ++ [d]) t := by
  have hsize : bufferSize b t = bufferSize b s := bufferSize_congr b hparams
  have hlog := h.counter
  rw [pushedCount_eq] at hcounter
  refine ⟨?_, fun i hi => ?_⟩
  · rw [hcounter, hsize, List.length_append, List.length_singleton]
    split <;> omega
  · rw [hbytes, lookup_pushedBuffer]
    by_cases hnew : bufferCounter b s < bufferSize b s ∧ i = bufferCounter b s
    · obtain ⟨hroom, rfl⟩ := hnew
      have hlength : log.length = bufferCounter b s := by omega
      exact ⟨d, by simp [← hlength], if_pos ⟨hroom, rfl⟩⟩
    · have hold : i < meaningful b s := by
        unfold meaningful at hi ⊢
        rw [hcounter, hsize] at hi
        split at hi <;> omega
      obtain ⟨d', hget, hlookup⟩ := h.byPush i hold
      have hlt : i < log.length := (List.getElem?_eq_some_iff.mp hget).1
      exact ⟨d', by rw [List.getElem?_append_left hlt, hget], by rw [if_neg hnew, hlookup]⟩

/-- A step keeps item 8 of each buffer, with the history the step leaves. -/
theorem PushedSinceZero.after_step (h : PushedSinceZero b log s) (hstep : step s = .next t) :
    PushedSinceZero b (logAfter b log s t) t := by
  have hparams := params_of_step hstep
  have hmove := bufferMove_of_step b hstep
  by_cases hzero : bufferCounter b t = 0
  · rw [logAfter_zero b log s t hzero]
    exact pushedSinceZero_nil hzero
  · generalize hpush : pushedByStep b s = p at hmove
    cases hmove with
    | kept hcounter hbytes =>
      rw [logAfter_none b log s t hzero hpush]
      exact h.congr hparams hcounter hbytes
    | emptied hcounter _ => exact absurd hcounter hzero
    | pushed d hcounter hbytes =>
      rw [logAfter_push b log s t d hzero hpush]
      exact h.push d hparams hcounter hbytes

theorem LoggedInv.after_step (h : LoggedInv l s) (hstep : step s = .next t) : LoggedInv (l.next s t) t where
  block := stepKeepsTheBlockInvariant s t h.block hstep
  item8 b := by
    rw [PushLog.next_of]
    exact (h.item8 b).after_step hstep

theorem loggedInv_resetWith (p : Config.Params) (moves : List HostMove) :
    LoggedInv { txpay := [], rxbuf := [] } { State.resetWith p with hostMoves := moves } where
  block := blockInv_resetWith p moves
  item8
    | .txpay => pushedSinceZero_nil rfl
    | .rxbuf => pushedSinceZero_nil rfl

/-- Settles O57: items 1 to 7 by the block invariant, item 8 buffer by buffer. -/
theorem stepKeepsAllItemsOfTheInvariant : Obligations.StepKeepsAllItemsOfTheInvariant :=
  ⟨fun p => loggedInv_resetWith p [], fun _ _ _ h hstep => h.after_step hstep⟩

/-- By induction on the number of steps: none of them stops, and the last state meets the invariant. -/
theorem runLogged_loggedInv (n : Nat) (s : State) (l : PushLog) (h : LoggedInv l s) :
    ∃ t l', runLogged n s l = some (t, l') ∧ LoggedInv l' t := by
  induction n generalizing s l with
  | zero => exact ⟨s, l, rfl, h⟩
  | succ n ih =>
    obtain ⟨u, hstep⟩ := step_total s
    obtain ⟨t, l', hrun, hinv⟩ := ih u (l.next s u) (h.after_step hstep)
    exact ⟨t, l', by simp [runLogged, hstep, hrun], hinv⟩

/-- The meaningful bytes of a buffer are the first of its history. -/
theorem PushedSinceZero.readRange_eq_take (h : PushedSinceZero b log s) :
    readRange b s 0 (meaningful b s) = log.take (meaningful b s) := by
  apply List.ext_getElem?
  intro i
  by_cases hi : i < meaningful b s
  · obtain ⟨d, hget, hlookup⟩ := h.byPush i hi
    simp [readRange, memRead, hi, hget, hlookup]
  · simp [readRange, hi]

/-- Settles O58: the reset state meets the invariant and every step of the run keeps it. -/
theorem everyReachableStateMeetsAllItems : Obligations.EveryReachableStateMeetsAllItems := by
  intro p moves n
  obtain ⟨t, l, hrun, hinv⟩ := runLogged_loggedInv n _ _ (loggedInv_resetWith p moves)
  exact ⟨t, l, hrun, hinv, fun b => (hinv.item8 b).readRange_eq_take⟩

end Sys2Proof.Machine
end

section
/-! PROOFS. Two states side by side: commands that answer alike in both (rules R36, R40, R68). No command reads a buffer byte at or beyond
the meaningful range. -/

namespace Sys2Proof.Machine

variable {s s' t t' : State} {i : Instr} {b : Config.Buffer}

/-! ### Two outcomes with the same answer -/

/-- Both outcomes are next states with the same answer, and the states it is written in are related by `R`. -/
def AnswersAlike (R : State → State → Prop) (o o' : Host.Outcome State Fault Refusal) : Prop :=
  ∃ (e : ErrCode) (data : Word) (u u' : State),
    o = .next (respond e data u) ∧ o' = .next (respond e data u') ∧ R u u'

section

variable {R : State → State → Prop} {u u' : State}

theorem answersAlike_answer {data data' : Word} (hdata : data' = data) (h : R u u') :
    AnswersAlike R (.next (answer data u)) (.next (answer data' u')) :=
  ⟨.ok, data, u, u', rfl, by rw [hdata]; rfl, h⟩

theorem answersAlike_raise {e : ErrCode} {data data' : Word} (hdata : data' = data) (h : R u u') :
    AnswersAlike R (.next (raise e data u)) (.next (raise e data' u')) :=
  ⟨e, data, u, u', rfl, by rw [hdata]; rfl, h⟩

/-- Two commands whose checks agree answer alike if they do on both ways of the check. -/
theorem answersAlike_ite {c c' : Prop} [Decidable c] [Decidable c'] {o₁ o₂ o₁' o₂' : Host.Outcome State Fault Refusal}
    (hc : c' ↔ c) (h₁ : c → AnswersAlike R o₁ o₁') (h₂ : ¬ c → AnswersAlike R o₂ o₂') :
    AnswersAlike R (if c then o₁ else o₂) (if c' then o₁' else o₂') := by
  by_cases h : c
  · rw [if_pos h, if_pos (hc.mpr h)]
    exact h₁ h
  · rw [if_neg h, if_neg (mt hc.mp h)]
    exact h₂ h

theorem AnswersAlike.next {o' : Host.Outcome State Fault Refusal} (h : AnswersAlike R (.next t) o')
    (hR : ∀ e data u u', R u u' → R (respond e data u) (respond e data u')) :
    ∃ t', o' = .next t' ∧ R t t' ∧ t'.rsp = t.rsp := by
  obtain ⟨e, data, u, u', ho, ho', hrel⟩ := h
  cases ho
  exact ⟨_, ho', hR e data u u' hrel, rfl⟩

end

/-! ### Reads below the meaningful range -/

/-- The same in everything but the buffers' contents. -/
def SameRegisters (s s' : State) : Prop := { s' with txpay := s.txpay, rxbuf := s.rxbuf } = s

/-- `s` with other contents in the two buffers. -/
def withBuffers (tx rx : Memory) (s : State) : State := { s with txpay := tx, rxbuf := rx }

@[simp] theorem withBuffers_txplen (tx rx : Memory) (s : State) : (withBuffers tx rx s).txplen = s.txplen := rfl
@[simp] theorem withBuffers_rxlen (tx rx : Memory) (s : State) : (withBuffers tx rx s).rxlen = s.rxlen := rfl

theorem SameRegisters.eq_withBuffers (h : SameRegisters s s') : s' = withBuffers s'.txpay s'.rxbuf s := by
  cases s
  cases s'
  cases h
  rfl

theorem SameRegisters.params (h : SameRegisters s s') : s'.params = s.params := by
  rw [h.eq_withBuffers]
  rfl

theorem SameRegisters.hostMoves (h : SameRegisters s s') : s'.hostMoves = s.hostMoves := by
  rw [h.eq_withBuffers]
  rfl

theorem SameRegisters.bufferCounter (b : Config.Buffer) (h : SameRegisters s s') :
    bufferCounter b s' = bufferCounter b s := by
  rw [h.eq_withBuffers]
  cases b <;> rfl

theorem SameRegisters.resetByPin (h : SameRegisters s s') : SameRegisters (resetByPin s) (resetByPin s') := by
  rw [h.eq_withBuffers]
  rfl

theorem SameRegisters.idle (h : SameRegisters s s') : SameRegisters { s with rsp := none } { s' with rsp := none } := by
  rw [h.eq_withBuffers]
  rfl

theorem SameRegisters.respond (e : ErrCode) (data : Word) (h : SameRegisters s s') :
    SameRegisters (respond e data s) (respond e data s') := by
  rw [h.eq_withBuffers]
  rfl

theorem SameToTheHost.sameRegisters (h : SameToTheHost s s') : SameRegisters s s' := h.registers

section

variable {tx rx : Memory}

theorem SameToTheHost.stagedPayload_eq (h : SameToTheHost s (withBuffers tx rx s))
    (hlen : s.txplen.toNat ≤ maxPayload s) : stagedPayload (withBuffers tx rx s) = stagedPayload s :=
  readRange_congr _ _ _ _ _ fun i _ hi => by
    have hlt : i < s.txplen.toNat := by simpa using hi
    exact h.meaningfulBytes .txpay i (lt_min hlt (lt_of_lt_of_le hlt hlen))

/-- Every byte of the built frame (R141), and what stands for a byte beyond it. -/
theorem SameToTheHost.txframe_eq (h : SameToTheHost s (withBuffers tx rx s)) (hlen : s.txplen.toNat ≤ maxPayload s)
    (i : Nat) : txframe (withBuffers tx rx s) i = txframe s i := by
  by_cases hi : 2 ≤ i ∧ i < s.txplen.toNat + 2
  · have hbyte : memRead .txpay (withBuffers tx rx s) (i - 2) = memRead .txpay s (i - 2) :=
      h.meaningfulBytes .txpay (i - 2)
        (lt_min (by change i - 2 < s.txplen.toNat; omega) (by change i - 2 < maxPayload s; omega))
    simp only [txframe, hbyte]
    rfl
  · have hother : i = 0 ∨ i = 1 ∨ ¬ i < s.txplen.toNat + 2 := by omega
    rcases hother with rfl | rfl | hge
    · rfl
    · rfl
    · have hge' : ¬ i < (withBuffers tx rx s).txplen.toNat + 2 := hge
      simp only [txframe, if_neg hge, if_neg hge']
      rfl

theorem SameToTheHost.rxbuf_eq (h : SameToTheHost s (withBuffers tx rx s)) (hlen : s.rxlen.toNat ≤ frameMax s) {j : Nat}
    (hj : j < s.rxlen.toNat) : memRead .rxbuf (withBuffers tx rx s) j = memRead .rxbuf s j :=
  h.meaningfulBytes .rxbuf j (lt_min hj (lt_of_lt_of_le hj hlen))

theorem SameToTheHost.received_eq (h : SameToTheHost s (withBuffers tx rx s)) (hlen : s.rxlen.toNat ≤ frameMax s) :
    received (withBuffers tx rx s) = received s :=
  readRange_congr _ _ _ _ _ fun _ _ hj => h.rxbuf_eq hlen (by simpa using hj)

theorem SameToTheHost.receivedPayload_eq (h : SameToTheHost s (withBuffers tx rx s))
    (hlen : s.rxlen.toNat ≤ frameMax s) : receivedPayload (withBuffers tx rx s) = receivedPayload s :=
  readRange_congr _ _ _ _ _ fun j hge hj => h.rxbuf_eq hlen (by
    have hlt : j < 2 + (s.rxlen.toNat - 4) := hj
    omega)

/-! ### One command -/

theorem execCrcVerify_answersAlike (h : SameToTheHost s (withBuffers tx rx s)) :
    AnswersAlike SameRegisters (execCrcVerify s) (execCrcVerify (withBuffers tx rx s)) := by
  refine answersAlike_answer (if_congr (and_congr_right fun hlen => ?_) rfl rfl) rfl
  rw [h.received_eq hlen]

theorem execEncBuild_answersAlike (h : SameToTheHost s (withBuffers tx rx s)) :
    AnswersAlike SameRegisters (execEncBuild s) (execEncBuild (withBuffers tx rx s)) := by
  refine answersAlike_ite Iff.rfl (fun _ => answersAlike_raise rfl rfl) fun hlen => ?_
  rw [h.stagedPayload_eq (Nat.le_of_not_lt hlen)]
  exact answersAlike_answer rfl rfl

/-- R39 item 2: a built frame has at most `MAX_PAYLOAD` bytes of payload. -/
theorem execEncPop_answersAlike (hinv : BlockInv s) (h : SameToTheHost s (withBuffers tx rx s)) :
    AnswersAlike SameRegisters (execEncPop s) (execEncPop (withBuffers tx rx s)) :=
  answersAlike_ite Iff.rfl
    (fun hpop => answersAlike_answer (congrArg zextByte (h.txframe_eq (hinv.built hpop.1).txplen _)) rfl)
    fun _ => answersAlike_raise rfl rfl

theorem BlockInv.decodedFrame (hinv : BlockInv s) (h : s.rxvalid = true ∨ s.rxexc = true) : DecodedFrame s := by
  rcases h with hv | he
  · exact (hinv.normal hv).1
  · exact (hinv.exceptional he).1

/-- R39 item 6: the payload of a decoded frame lies inside the received sequence. -/
theorem execDecPop_answersAlike (hinv : BlockInv s) (h : SameToTheHost s (withBuffers tx rx s)) :
    AnswersAlike SameRegisters (execDecPop s) (execDecPop (withBuffers tx rx s)) := by
  refine answersAlike_ite Iff.rfl (fun ⟨hvalid, hrd⟩ => ?_) fun _ => answersAlike_raise rfl rfl
  have hframe := hinv.decodedFrame hvalid
  have hplen := hframe.rxplen
  have hbyte := h.rxbuf_eq hframe.le_frameMax (j := 2 + s.rxrd.toNat) (by omega)
  exact answersAlike_answer (congrArg zextByte hbyte) rfl

/-- Every read of `DEC.PARSE` comes after the check of the length. -/
theorem execDecParse_answersAlike (h : SameToTheHost s (withBuffers tx rx s)) :
    AnswersAlike SameRegisters (execDecParse s) (execDecParse (withBuffers tx rx s)) := by
  refine answersAlike_ite Iff.rfl (fun _ => answersAlike_raise rfl rfl) fun hlen => ?_
  have hle : s.rxlen.toNat ≤ frameMax s := by omega
  have hbyte : ∀ j, j < 4 → memRead .rxbuf (withBuffers tx rx s) j = memRead .rxbuf s j :=
    fun j hj => h.rxbuf_eq hle (by omega)
  have hframe : SameRegisters (takeFrame s) (takeFrame (withBuffers tx rx s)) := by
    simp only [takeFrame, hbyte 0 (by omega), hbyte 1 (by omega)]
    rfl
  rw [h.received_eq hle, h.receivedPayload_eq hle, hbyte 1 (by omega), hbyte 2 (by omega)]
  refine answersAlike_ite Iff.rfl (fun _ => answersAlike_raise rfl rfl) fun _ => ?_
  refine answersAlike_ite Iff.rfl (fun _ => answersAlike_raise rfl rfl) fun _ => ?_
  refine answersAlike_ite Iff.rfl (fun _ => answersAlike_raise rfl ?_) fun _ => answersAlike_answer rfl ?_
  · rw [hframe.eq_withBuffers]
    rfl
  · rw [hframe.eq_withBuffers]
    rfl

theorem execRd_answersAlike (r : Byte) :
    AnswersAlike SameRegisters (execRd r s) (execRd r (withBuffers tx rx s)) := by
  unfold execRd
  cases RegName.ofNumber r with
  | none => exact answersAlike_raise rfl rfl
  | some n => exact answersAlike_answer (by cases n <;> rfl) rfl

theorem exec_answersAlike (i : Instr) (hinv : BlockInv s) (h : SameToTheHost s (withBuffers tx rx s)) :
    AnswersAlike SameRegisters (exec i s) (exec i (withBuffers tx rx s)) := by
  cases i with
  | rd r => exact execRd_answersAlike r
  | crcVerify => exact execCrcVerify_answersAlike h
  | encBuild => exact execEncBuild_answersAlike h
  | encPop => exact execEncPop_answersAlike hinv h
  | decParse => exact execDecParse_answersAlike h
  | decPop => exact execDecPop_answersAlike hinv h
  | nop | sreset | clrerr | crcInit | crcByte | encStart | encUnit | encFc | encPush | encRewind | decStart | decPush
    | decRewind => exact answersAlike_answer rfl rfl

end

theorem execWord_answersAlike (w : Word) (hinv : BlockInv s) (h : SameToTheHost s s') :
    AnswersAlike SameRegisters (execWord w s) (execWord w s') := by
  have hs' : s' = withBuffers s'.txpay s'.rxbuf s := h.sameRegisters.eq_withBuffers
  generalize s'.txpay = tx, s'.rxbuf = rx at hs'
  subst hs'
  cases hdecode : decode w with
  | command i =>
    rw [execWord_of_command hdecode, execWord_of_command hdecode]
    exact exec_answersAlike i hinv h
  | illegal why =>
    rw [execWord_of_illegal hdecode, execWord_of_illegal hdecode]
    exact answersAlike_raise rfl rfl

/-! ### One step -/

theorem blockInv_moveTaken (hinv : BlockInv s) : BlockInv (moveTaken s) := by
  obtain ⟨hbuf, htx, hrx, hcodes⟩ := blockInv_iff.mp hinv
  have hkept : ∀ b, BufferMove b s (moveTaken s) none := fun b => by cases b <;> exact .kept rfl rfl
  exact blockInv_iff.mpr
    ⟨fun b => (hbuf b).of_move (hkept b) rfl, htx.congr rfl rfl, hrx.congr rfl rfl, hcodes.err, hcodes.rsp⟩

theorem sameToTheHost_moveTaken (h : SameToTheHost s s') : SameToTheHost (moveTaken s) (moveTaken s') where
  registers := by
    rw [h.sameRegisters.eq_withBuffers]
    rfl
  meaningfulBytes
    | .txpay => h.meaningfulBytes .txpay
    | .rxbuf => h.meaningfulBytes .rxbuf

/-- The same answer and the same registers after a step. -/
theorem step_sameRegisters (hinv : BlockInv s) (h : SameToTheHost s s') (hstep : step s = .next t) :
    ∃ t', step s' = .next t' ∧ SameRegisters t t' ∧ t'.rsp = t.rsp := by
  have hhost : s'.hostMoves = s.hostMoves := h.sameRegisters.hostMoves
  have hregisters  := (sameToTheHost_moveTaken h).sameRegisters
  match hmoves : s.hostMoves with
  | [] =>
    have hmoves' : s'.hostMoves = [] := hhost.trans hmoves
    rw [step_of_idle hmoves] at hstep
    cases hstep
    rw [moveTaken_idle hmoves, moveTaken_idle hmoves'] at hregisters
    exact ⟨_, step_of_idle hmoves', hregisters.idle, rfl⟩
  | .rst :: rest =>
    have hmoves' : s'.hostMoves = .rst :: rest := hhost.trans hmoves
    rw [step_of_rst hmoves] at hstep
    cases hstep
    rw [moveTaken_cons hmoves, moveTaken_cons hmoves'] at hregisters
    exact ⟨_, step_of_rst hmoves', hregisters.resetByPin, rfl⟩
  | .command w :: rest =>
    have hmoves' : s'.hostMoves = .command w :: rest := hhost.trans hmoves
    have halike := execWord_answersAlike w (blockInv_moveTaken hinv) (sameToTheHost_moveTaken h)
    rw [moveTaken_cons hmoves, moveTaken_cons hmoves', ← step_of_command hmoves, ← step_of_command hmoves', hstep]
      at halike
    exact halike.next fun e data _ _ hrel => hrel.respond e data

/-- A byte meaningful after the step was meaningful before it, or the push has put the same byte there in both states. -/
theorem BufferMove.sameBytes {p : Option Byte} (hmove : BufferMove b s t p) (hmove' : BufferMove b s' t' p)
    (hparams : t.params = s.params) (hparams' : s'.params = s.params)
    (hcounter' : bufferCounter b s' = bufferCounter b s)
    (h : ∀ i, i < meaningful b s → memRead b s' i = memRead b s i) (j : Nat) (hj : j < meaningful b t) :
    memRead b t' j = memRead b t j := by
  have hsize : bufferSize b t = bufferSize b s := bufferSize_congr b hparams
  have hsize' : bufferSize b s' = bufferSize b s := bufferSize_congr b hparams'
  unfold meaningful at hj
  rw [hsize] at hj
  cases p with
  | none =>
    have hbytes' : bufferOf b t' = bufferOf b s' := by
      cases hmove' with
      | kept _ hbytes' | emptied _ hbytes' => exact hbytes'
    cases hmove with
    | kept hcounter hbytes =>
      rw [hcounter] at hj
      rw [memRead_congr b t' s' hbytes', memRead_congr b t s hbytes]
      exact h j hj
    | emptied hcounter _ => omega
  | some d =>
    cases hmove with | pushed _ hcounter hbytes =>
    cases hmove' with | pushed _ _ hbytes' =>
    rw [memRead, memRead, hbytes, hbytes', lookup_pushedBuffer, lookup_pushedBuffer, hcounter', hsize']
    split
    case isTrue => rfl
    case isFalse hnew =>
      rw [hcounter, pushedCount_eq] at hj
      refine h j ?_
      unfold meaningful
      split at hj <;> omega

/-- Settles O54: every read of a command lies in the meaningful range, so registers and answer agree; a step moves each buffer of
both states alike. -/
theorem unmeaningfulBytesCannotBeObserved : Obligations.UnmeaningfulBytesCannotBeObserved := by
  intro s s' t hinv h hstep
  have hbefore := h.sameRegisters
  obtain ⟨t', hstep', hregisters, hrsp⟩ := step_sameRegisters hinv h hstep
  refine ⟨t', hstep', ⟨hregisters, fun b => ?_⟩, hrsp⟩
  have hpush : pushedByStep b s' = pushedByStep b s := by
    unfold pushedByStep
    rw [hbefore.hostMoves]
  exact (bufferMove_of_step b hstep).sameBytes (hpush ▸ bufferMove_of_step b hstep') (params_of_step hstep)
    hbefore.params (hbefore.bufferCounter b) (h.meaningfulBytes b)

end Sys2Proof.Machine
end

section
/-! PROOFS. The table of which command writes which state (rule R35), the independence of the three command groups, and the position
counters (rules R24, R29). -/

namespace Sys2Proof.Machine

variable {s s' t u : State} {i : Instr}

/-! ### The columns of the table, one lemma each: the commands that write it, and no other -/

theorem Effect.crc_kept (h : Effect s i u) (hsreset : i ≠ .sreset) (hinit : i ≠ .crcInit) (hbyte : ∀ d, i ≠ .crcByte d) :
    u.crc = s.crc := by
  cases h with
  | sreset => exact absurd rfl hsreset
  | crcInit => exact absurd rfl hinit
  | crcByte d => exact absurd rfl (hbyte d)
  | _ => rfl

theorem Effect.err_kept (h : Effect s i u) (hsreset : i ≠ .sreset) (hclrerr : i ≠ .clrerr) : u.err = s.err := by
  cases h with
  | sreset => exact absurd rfl hsreset
  | clrerr => exact absurd rfl hclrerr
  | _ => rfl

theorem Effect.txunit_kept (h : Effect s i u) (hsreset : i ≠ .sreset) (hunit : ∀ d, i ≠ .encUnit d) :
    u.txunit = s.txunit := by
  cases h with
  | sreset => exact absurd rfl hsreset
  | encUnit d => exact absurd rfl (hunit d)
  | _ => rfl

theorem Effect.txfc_kept (h : Effect s i u) (hsreset : i ≠ .sreset) (hfc : ∀ d, i ≠ .encFc d) : u.txfc = s.txfc := by
  cases h with
  | sreset => exact absurd rfl hsreset
  | encFc d => exact absurd rfl (hfc d)
  | _ => rfl

theorem Effect.txplen_kept (h : Effect s i u) (hsreset : i ≠ .sreset) (hstart : i ≠ .encStart)
    (hpush : ∀ d, i ≠ .encPush d) : u.txplen = s.txplen := by
  cases h with
  | sreset => exact absurd rfl hsreset
  | encStart => exact absurd rfl hstart
  | encPush d => exact absurd rfl (hpush d)
  | _ => rfl

theorem Effect.txpay_kept (h : Effect s i u) (hpush : ∀ d, i ≠ .encPush d) : u.txpay = s.txpay := by
  cases h with
  | encPush d => exact absurd rfl (hpush d)
  | _ => rfl

/-- The built frame; the two commands that move in it write `TXRD` only. -/
theorem Effect.built_kept (h : Effect s i u) (hsreset : i ≠ .sreset) (hstart : i ≠ .encStart)
    (hunit : ∀ d, i ≠ .encUnit d) (hfc : ∀ d, i ≠ .encFc d) (hpush : ∀ d, i ≠ .encPush d) (hbuild : i ≠ .encBuild) :
    u.txlen = s.txlen ∧ u.txcrc = s.txcrc ∧ u.txvalid = s.txvalid ∧
      (i ≠ .encPop → i ≠ .encRewind → u.txrd = s.txrd) := by
  cases h with
  | sreset => exact absurd rfl hsreset
  | encStart => exact absurd rfl hstart
  | encUnit d => exact absurd rfl (hunit d)
  | encFc d => exact absurd rfl (hfc d)
  | encPush d => exact absurd rfl (hpush d)
  | encBuildTooLong | encBuild => exact absurd rfl hbuild
  | encPop => exact ⟨rfl, rfl, rfl, fun hpop => absurd rfl hpop⟩
  | encRewind => exact ⟨rfl, rfl, rfl, fun _ hrewind => absurd rfl hrewind⟩
  | _ => exact ⟨rfl, rfl, rfl, fun _ _ => rfl⟩

theorem Effect.rxlen_kept (h : Effect s i u) (hsreset : i ≠ .sreset) (hstart : i ≠ .decStart)
    (hpush : ∀ d, i ≠ .decPush d) : u.rxlen = s.rxlen := by
  cases h with
  | sreset => exact absurd rfl hsreset
  | decStart => exact absurd rfl hstart
  | decPush d => exact absurd rfl (hpush d)
  | _ => rfl

theorem Effect.rxbuf_kept (h : Effect s i u) (hpush : ∀ d, i ≠ .decPush d) : u.rxbuf = s.rxbuf := by
  cases h with
  | decPush d => exact absurd rfl (hpush d)
  | _ => rfl

/-- The decoded fields; the two commands that move in the payload write `RXRD` only. -/
theorem Effect.decoded_kept (h : Effect s i u) (hsreset : i ≠ .sreset) (hstart : i ≠ .decStart)
    (hpush : ∀ d, i ≠ .decPush d) (hparse : i ≠ .decParse) :
    decodedFields { u with rxrd := s.rxrd } = decodedFields s ∧
      (i ≠ .decPop → i ≠ .decRewind → u.rxrd = s.rxrd) := by
  cases h with
  | sreset => exact absurd rfl hsreset
  | decStart => exact absurd rfl hstart
  | decPush d => exact absurd rfl (hpush d)
  | decParseRefused | decParseException | decParseNormal => exact absurd rfl hparse
  | decPop => exact ⟨rfl, fun hpop => absurd rfl hpop⟩
  | decRewind => exact ⟨rfl, fun _ hrewind => absurd rfl hrewind⟩
  | _ => exact ⟨rfl, fun _ _ => rfl⟩

theorem Effect.hostMoves (h : Effect s i u) : u.hostMoves = s.hostMoves := by cases h <;> rfl

/-- Code 0 is the code of no error (R220). -/
theorem ErrCode.eq_ok_of_code_eq_zero {e : ErrCode} (h : e.code = 0) : e = .ok := by
  cases e with
  | ok => rfl
  | encoding | checksum | malformed | mbexc | empty | illegal => exact absurd h (by decide)

/-- Settles O49: each column by its lemma; after that the answer writes `ERR` and the response only, and `ERR` not when it is `OK`. -/
theorem commandsWriteOnlyTheirColumns : Obligations.CommandsWriteOnlyTheirColumns := by
  intro i s t hexec
  obtain ⟨e, data, u, rfl, heff⟩ := effect_of_exec hexec
  refine ⟨heff.crc_kept, fun hsreset hclrerr r hr hok => ?err, heff.txunit_kept, heff.txfc_kept, heff.txplen_kept,
    heff.txpay_kept, fun hsreset hstart hunit hfc hpush hbuild => ?built, heff.rxlen_kept, heff.rxbuf_kept,
    heff.decoded_kept, heff.params, heff.hostMoves⟩
  case err =>
    cases hr
    rw [respond_err, if_pos (ErrCode.eq_ok_of_code_eq_zero hok)]
    exact heff.err_kept hsreset hclrerr
  case built => exact heff.built_kept hsreset hstart hunit hfc hpush hbuild

/-! ### The three groups -/

theorem Effect.encodeSide_kept (h : Effect s i u) (hgroup : i.group = .crcEngine ∨ i.group = .decoder) :
    encodeSide u = encodeSide s := by
  cases h with
  | sreset | encStart | encUnit | encFc | encPush | encBuildTooLong | encBuild | encPop | encRewind =>
    simp [Instr.group] at hgroup
  | _ => rfl

theorem Effect.decodeSide_kept (h : Effect s i u) (hgroup : i.group = .crcEngine ∨ i.group = .encoder) :
    decodeSide u = decodeSide s := by
  cases h with
  | sreset | decStart | decPush | decParseRefused | decParseException | decParseNormal | decPop | decRewind =>
    simp [Instr.group] at hgroup
  | _ => rfl

theorem Effect.crc_kept_of_group (h : Effect s i u) (hgroup : i.group = .encoder ∨ i.group = .decoder) :
    u.crc = s.crc := by
  cases h with
  | sreset | crcInit | crcByte => simp [Instr.group] at hgroup
  | _ => rfl

/-- Two states with the same encode side. -/
def SameEncodeSide (s s' : State) : Prop := encodeSide s' = encodeSide s

/-- Two states with the same decode side. -/
def SameDecodeSide (s s' : State) : Prop := decodeSide s' = decodeSide s

/-- Two states with the same running checksum. -/
def SameCrc (s s' : State) : Prop := s'.crc = s.crc

theorem exec_sameEncodeSide (hgroup : i.group = .encoder) (hparams : s'.params = s.params) (h : SameEncodeSide s s') :
    AnswersAlike SameEncodeSide (exec i s) (exec i s') := by
  cases s
  cases s'
  cases hparams
  cases h
  cases i with
  | encBuild => exact answersAlike_ite Iff.rfl (fun _ => answersAlike_raise rfl rfl) fun _ => answersAlike_answer rfl rfl
  | encPop => exact answersAlike_ite Iff.rfl (fun _ => answersAlike_answer rfl rfl) fun _ => answersAlike_raise rfl rfl
  | encStart | encUnit | encFc | encPush | encRewind => exact answersAlike_answer rfl rfl
  | _ => cases hgroup

theorem exec_sameDecodeSide (hgroup : i.group = .decoder) (hparams : s'.params = s.params) (h : SameDecodeSide s s') :
    AnswersAlike SameDecodeSide (exec i s) (exec i s') := by
  cases s
  cases s'
  cases hparams
  cases h
  cases i with
  | decParse =>
    exact answersAlike_ite Iff.rfl (fun _ => answersAlike_raise rfl rfl) fun _ =>
      answersAlike_ite Iff.rfl (fun _ => answersAlike_raise rfl rfl) fun _ =>
      answersAlike_ite Iff.rfl (fun _ => answersAlike_raise rfl rfl) fun _ =>
      answersAlike_ite Iff.rfl (fun _ => answersAlike_raise rfl rfl) fun _ => answersAlike_answer rfl rfl
  | decPop => exact answersAlike_ite Iff.rfl (fun _ => answersAlike_answer rfl rfl) fun _ => answersAlike_raise rfl rfl
  | decStart | decPush | decRewind => exact answersAlike_answer rfl rfl
  | _ => cases hgroup

theorem execCrcVerify_sameCrc (hparams : s'.params = s.params) (h : SameCrc s s') (hside : SameDecodeSide s s') :
    AnswersAlike SameCrc (execCrcVerify s) (execCrcVerify s') := by
  refine answersAlike_answer ?_ h
  cases s
  cases s'
  cases hparams
  cases hside
  rfl

/-- `CRC.VERIFY` alone reads the decode side. -/
theorem exec_sameCrc (hgroup : i.group = .crcEngine) (hparams : s'.params = s.params) (h : SameCrc s s')
    (hside : i = .crcVerify → SameDecodeSide s s') : AnswersAlike SameCrc (exec i s) (exec i s') := by
  cases i with
  | crcInit => exact answersAlike_answer rfl rfl
  | crcByte d =>
    have hcrc : crcStep s'.crc d = crcStep s.crc d := congrArg (crcStep · d) h
    exact answersAlike_answer hcrc hcrc
  | crcVerify => exact execCrcVerify_sameCrc hparams h (hside rfl)
  | _ => cases hgroup

/-- Settles O50: a group's commands write their own side only, and what they read of the state is their own side. -/
theorem commandGroupsDoNotShareState : Obligations.CommandGroupsDoNotShareState := by
  refine ⟨fun i s t hexec => ?frames, fun i s s' t hexec hparams => ?independence⟩
  case frames =>
    obtain ⟨e, data, u, rfl, heff⟩ := effect_of_exec hexec
    exact ⟨fun hg => ⟨heff.encodeSide_kept (.inl hg), heff.decodeSide_kept (.inl hg)⟩,
      fun hg => ⟨heff.crc_kept_of_group (.inl hg), heff.decodeSide_kept (.inr hg)⟩,
      fun hg => ⟨heff.crc_kept_of_group (.inr hg), heff.encodeSide_kept (.inr hg)⟩⟩
  case independence =>
    refine ⟨fun hg h => ?_, fun hg h => ?_, fun hg h hside => ?_⟩
    · exact (hexec ▸ exec_sameEncodeSide hg hparams h).next fun _ _ _ _ hrel => hrel
    · exact (hexec ▸ exec_sameDecodeSide hg hparams h).next fun _ _ _ _ hrel => hrel
    · exact (hexec ▸ exec_sameCrc hg hparams h hside).next fun _ _ _ _ hrel => hrel

/-! ### The position counters -/

/-- A push moves a buffer's counter on by one, or keeps it at its saturation value. -/
theorem pushedCount_cases (b : Config.Buffer) (s : State) :
    pushedCount b s = bufferCounter b s ∨ pushedCount b s = bufferCounter b s + 1 := by
  rw [pushedCount_eq]
  split
  · exact .inr rfl
  · exact .inl rfl

theorem Effect.txplen_cases (h : Effect s i u) :
    u.txplen.toNat = s.txplen.toNat ∨ (u.txplen.toNat = s.txplen.toNat + 1 ∧ ∃ d, i = .encPush d) ∨
      (u.txplen = 0 ∧ (i = .sreset ∨ i = .encStart)) := by
  cases h with
  | sreset => exact .inr (.inr ⟨rfl, .inl rfl⟩)
  | encStart => exact .inr (.inr ⟨rfl, .inr rfl⟩)
  | encPush d => exact (pushedCount_cases .txpay s).imp id fun h => .inl ⟨h, d, rfl⟩
  | _ => exact .inl rfl

theorem Effect.rxlen_cases (h : Effect s i u) :
    u.rxlen.toNat = s.rxlen.toNat ∨ (u.rxlen.toNat = s.rxlen.toNat + 1 ∧ ∃ d, i = .decPush d) ∨
      (u.rxlen = 0 ∧ (i = .sreset ∨ i = .decStart)) := by
  cases h with
  | sreset => exact .inr (.inr ⟨rfl, .inl rfl⟩)
  | decStart => exact .inr (.inr ⟨rfl, .inr rfl⟩)
  | decPush d => exact (pushedCount_cases .rxbuf s).imp id fun h => .inl ⟨h, d, rfl⟩
  | _ => exact .inl rfl

/-- A pop answers a byte only below the limit of the read pointer, so that `TXRD` does not wrap. -/
theorem Effect.txrd_cases (h : Effect s i u) :
    u.txrd.toNat = s.txrd.toNat ∨ (u.txrd.toNat = s.txrd.toNat + 1 ∧ i = .encPop) ∨
      (u.txrd = 0 ∧ (i = .sreset ∨ i = .encStart ∨ (∃ d, i = .encUnit d) ∨ (∃ d, i = .encFc d) ∨ (∃ d, i = .encPush d) ∨
        i = .encBuild ∨ i = .encRewind)) := by
  cases h with
  | encPop _ hrd => exact .inr (.inl ⟨Count.toNat_add_one hrd, rfl⟩)
  | sreset | encStart | encUnit | encFc | encPush | encBuildTooLong | encBuild | encRewind =>
    exact .inr (.inr ⟨rfl, by simp⟩)
  | _ => exact .inl rfl

/-- The same for `RXRD`. -/
theorem Effect.rxrd_cases (h : Effect s i u) :
    u.rxrd.toNat = s.rxrd.toNat ∨ (u.rxrd.toNat = s.rxrd.toNat + 1 ∧ i = .decPop) ∨
      (u.rxrd = 0 ∧ (i = .sreset ∨ i = .decStart ∨ (∃ d, i = .decPush d) ∨ i = .decParse ∨ i = .decRewind)) := by
  cases h with
  | decPop _ hrd => exact .inr (.inl ⟨Count.toNat_add_one hrd, rfl⟩)
  | sreset | decStart | decPush | decParseRefused | decParseException | decParseNormal | decRewind =>
    exact .inr (.inr ⟨rfl, by simp⟩)
  | _ => exact .inl rfl

/-- Settles O52, counter by counter. -/
theorem countersAdvanceByOneAndNeverWrap : Obligations.CountersAdvanceByOneAndNeverWrap := by
  intro i s t hexec
  obtain ⟨e, data, u, rfl, heff⟩ := effect_of_exec hexec
  exact ⟨heff.txplen_cases, heff.rxlen_cases, heff.txrd_cases, heff.rxrd_cases⟩

end Sys2Proof.Machine
end

section
/-! PROOFS. Reading the registers: their numbers and values, the bits of `STATUS`, the values after reset, and the assembler's lines
(rules R31 to R34, R38, R102, R193, R250). -/

namespace Sys2Proof

/-- A format `B` or `R` word is its first byte with the operand put into `IMM` (R90, R91). -/
theorem wordOf_eq_or (g f : BitVec 4) (d : Byte) : wordOf g f d = wordOf g f 0 ||| d.setWidth 16 := by
  apply BitVec.eq_of_getLsbD_eq
  intro k _
  simp only [wordOf, BitVec.getLsbD_or, BitVec.getLsbD_append, BitVec.getLsbD_setWidth]
  by_cases hlow : k < 8
  · have hk : k < 16 := by omega
    simp [hlow, hk]
  · simp [hlow, BitVec.getLsbD_of_ge d k (by omega)]

end Sys2Proof

namespace Sys2Proof.Machine

variable {s : State} {r : Byte}

/-! ### The numbered registers -/

/-- Every number up to `0x0F` is the number of a register (R34). -/
theorem RegName.exists_number (h : r.toNat ≤ 0x0F) : ∃ n : RegName, r = n.number ∧ RegName.ofNumber r = some n := by
  have hr : r = BitVec.ofNat 8 r.toNat := by simp
  generalize r.toNat = k at h hr
  subst hr
  interval_cases k
  exacts [⟨.status, rfl, rfl⟩, ⟨.crc, rfl, rfl⟩, ⟨.txunit, rfl, rfl⟩, ⟨.txfc, rfl, rfl⟩, ⟨.txplen, rfl, rfl⟩,
    ⟨.txlen, rfl, rfl⟩, ⟨.txrd, rfl, rfl⟩, ⟨.txcrc, rfl, rfl⟩, ⟨.rxlen, rfl, rfl⟩, ⟨.rxunit, rfl, rfl⟩, ⟨.rxfc, rfl, rfl⟩,
    ⟨.rxplen, rfl, rfl⟩, ⟨.rxrd, rfl, rfl⟩, ⟨.excode, rfl, rfl⟩, ⟨.origfc, rfl, rfl⟩, ⟨.cap, rfl, rfl⟩]

/-- A number above `0x0F` names no register (R34). -/
theorem RegName.ofNumber_eq_none (h : 0x0F < r.toNat) : RegName.ofNumber r = none := by
  unfold RegName.ofNumber
  split
  case h_17 => rfl
  all_goals omega

/-- `CAP` holds `MAX_PAYLOAD` in 9 bits without loss (R7, R32). -/
theorem capRegister_toNat (s : State) : (capRegister s).toNat = maxPayload s := by
  have h := maxPayload_le s
  simp only [capRegister, BitVec.toNat_ofNat]
  omega

theorem readRegister_cap (s : State) : readRegister s .cap = BitVec.ofNat 16 (maxPayload s) := by
  have h := maxPayload_le s
  apply BitVec.eq_of_toNat_eq
  simp only [readRegister, zextCount, BitVec.toNat_setWidth, capRegister_toNat, BitVec.toNat_ofNat]

/-- The values of the sixteen registers in the order of their numbers (R34). -/
theorem registerTable_getD (s : State) (n : RegName) :
    ([statusWord s, s.crc, s.txunit.setWidth 16, s.txfc.setWidth 16, s.txplen.setWidth 16, s.txlen.setWidth 16,
      s.txrd.setWidth 16, s.txcrc, s.rxlen.setWidth 16, s.rxunit.setWidth 16, s.rxfc.setWidth 16, s.rxplen.setWidth 16,
      s.rxrd.setWidth 16, s.excode.setWidth 16, s.origfc.setWidth 16,
      BitVec.ofNat 16 s.params.maxPayload.val] : List Word).getD n.number.toNat 0 = readRegister s n := by
  cases n with
  | cap => exact (readRegister_cap s).symm
  | _ => rfl

/-- Settles O15: a number up to `0x0F` is that of a register, and its value is the answer. -/
theorem rdAnswersTheNumberedRegister : Obligations.RdAnswersTheNumberedRegister := by
  refine ⟨fun r hr => ?decoded, fun s r hr => ?defined, fun s r hr => ?undefined⟩
  case decoded =>
    have hword : encode (.rd r) = 0x0300 ||| r.setWidth 16 := wordOf_eq_or 0 3 r
    rw [← hword]
    exact decode_encode (.rd r) (decide_eq_true hr)
  case defined =>
    obtain ⟨n, rfl, hn⟩ := RegName.exists_number hr
    rw [registerTable_getD]
    show execRd n.number s = _
    rw [execRd, hn]
    rfl
  case undefined =>
    show execRd r s = _
    rw [execRd, RegName.ofNumber_eq_none hr]
    rfl

/-! ### The bits of `STATUS` -/

theorem ackFlag_iff (s : State) : ackFlag s = true ↔ s.rxexc = true ∧ s.excode = 5 := by
  simp [ackFlag]

theorem txovfFlag_iff (s : State) : txovfFlag s = true ↔ maxPayload s < s.txplen.toNat := by
  simp [txovfFlag]

theorem rxovfFlag_iff (s : State) : rxovfFlag s = true ↔ frameMax s < s.rxlen.toNat := by
  simp [rxovfFlag]

/-- R31, bit by bit from bit 0 up; bits 15:9 are 0. -/
theorem statusWord_getLsbD (s : State) (k : Nat) :
    (statusWord s).getLsbD k =
      if k < 3 then s.err.getLsbD k
      else if k = 3 then s.txvalid
      else if k = 4 then s.rxvalid
      else if k = 5 then s.rxexc
      else if k = 6 then ackFlag s
      else if k = 7 then txovfFlag s
      else if k = 8 then rxovfFlag s
      else false := by
  change BitVec.getLsbD (w := 7 + 1 + 1 + 1 + 1 + 1 + 1 + 3) (_ ++ _) k = _
  simp only [BitVec.getLsbD_append]
  match k with
  | 0 | 1 | 2 | 3 | 4 | 5 | 6 | 7 | 8 => simp
  | k + 9 => simp

theorem statusWord_err (s : State) : (statusWord s).extractLsb' 0 3 = s.err := by
  apply BitVec.eq_of_getLsbD_eq
  intro k hk
  simp [statusWord_getLsbD, hk]

theorem statusWord_reserved (s : State) : (statusWord s).extractLsb' 9 7 = 0 := by
  apply BitVec.eq_of_getLsbD_eq
  intro k _
  have hlow : ¬ 9 + k < 3 := by omega
  have hne : ∀ j ≤ 8, 9 + k ≠ j := fun j hj => by omega
  simp [statusWord_getLsbD, hlow, hne]

/-- Settles O16: the fields one by one, and R33's saturation values by R39 item 1. -/
theorem statusBitsAreTheListedFields : Obligations.StatusBitsAreTheListedFields := by
  have hack (s : State) : (statusWord s).getLsbD 6 = true ↔ s.rxexc = true ∧ s.excode = 5 := by
    rw [statusWord_getLsbD]
    exact ackFlag_iff s
  have htxovf (s : State) : (statusWord s).getLsbD 7 = true ↔ maxPayload s < s.txplen.toNat := by
    rw [statusWord_getLsbD]
    exact txovfFlag_iff s
  have hrxovf (s : State) : (statusWord s).getLsbD 8 = true ↔ frameMax s < s.rxlen.toNat := by
    rw [statusWord_getLsbD]
    exact rxovfFlag_iff s
  refine ⟨fun s => ⟨statusWord_err s, statusWord_getLsbD s 3, statusWord_getLsbD s 4, statusWord_getLsbD s 5,
    hack s, htxovf s, hrxovf s, statusWord_reserved s⟩, fun s hinv => ⟨?_, ?_⟩⟩
  · have hle := hinv.txplen_le
    rw [htxovf]
    omega
  · have hle := hinv.rxlen_le
    rw [hrxovf]
    omega

/-! ### The values after reset -/

/-- With `ERR` 0, the flags down and the counters 0, `STATUS` reads 0 (R250). -/
theorem statusWord_eq_zero (herr : s.err = 0) (htx : s.txvalid = false) (hrx : s.rxvalid = false) (hexc : s.rxexc = false)
    (htxplen : s.txplen = 0) (hrxlen : s.rxlen = 0) : statusWord s = 0 := by
  simp [statusWord, ackFlag, txovfFlag, rxovfFlag, herr, htx, hrx, hexc, htxplen, hrxlen]

/-- Settles O11: `SRESET` and reset leave the same registers, and with both counters at 0 no byte is meaningful. -/
theorem resetLeavesTheListedValues : Obligations.ResetLeavesTheListedValues := by
  intro s h
  have hreset : ∃ u p, s = { resetRegisters u with rsp := p } := by
    rcases h with ⟨p, rfl⟩ | ⟨s₀, hexec⟩
    · exact ⟨State.resetWith p, none, rfl⟩
    · cases hexec
      exact ⟨s₀, some ⟨0, 0⟩, rfl⟩
  obtain ⟨u, p, rfl⟩ := hreset
  refine ⟨rfl, rfl, rfl, rfl, rfl, rfl, rfl, rfl, rfl, rfl, rfl, rfl, rfl, rfl, rfl, rfl, rfl, rfl,
    statusWord_eq_zero rfl rfl rfl rfl rfl rfl, capRegister_toNat _, fun b => ?_⟩
  cases b with
  | txpay | rxbuf => exact meaningful_eq_zero rfl

/-! ### The assembler's lines -/

/-- R102: each mnemonic is the line of one command, with the operand its format takes. -/
theorem assemble_disassemble (i : Instr) : assemble (disassemble i) = some i := by
  cases i <;> rfl

theorem assemble_rd (o : AsmOperand) : assemble { mnemonic := "RD", operand := some o } = asmR .rd (some o) := rfl

theorem RegName.ofNumber_number (n : RegName) : RegName.ofNumber n.number = some n := by
  cases n <;> rfl

/-- Settles O6: a command's line by its mnemonic; a register name stands for the number that names the register. -/
theorem assemblingALineGivesTheCommand : Obligations.AssemblingALineGivesTheCommand :=
  ⟨assemble_disassemble, fun n => ⟨assemble_rd (.reg n), n.ofNumber_number⟩⟩

end Sys2Proof.Machine
end

section
/-! PROOFS. The commands that only read, those that move a read pointer, and those that build and parse: their only side effects are the
listed ones, and building and parsing repeat (rule R72). -/

namespace Sys2Proof.Machine

variable {s t u : State} {e : ErrCode}

/-! ### The pops and the rewinds -/

/-- A pop of either side (R149, R169) by its answer: `OK` after its check passed and its pointer moved on, a code after nothing moved. -/
theorem pop_by_answer {c : Prop} [Decidable c] {data : Word} {moved : State} {r : Response}
    (h : (if c then .next (answer data moved) else .next (raise .empty 0 s) : Host.Outcome State Fault Refusal) = .next t)
    (hrsp : t.rsp = some r) :
    (r.err = 0 → c ∧ t = { moved with rsp := some r }) ∧ (r.err ≠ 0 → t = { s with err := 5, rsp := some r }) := by
  split at h
  case isTrue hc =>
    cases h
    cases hrsp
    exact ⟨fun _ => ⟨hc, rfl⟩, fun hne => absurd rfl hne⟩
  case isFalse =>
    cases h
    cases hrsp
    exact ⟨fun hok => absurd hok (by decide), fun _ => rfl⟩

/-- A pop writes no more than its pointer, `ERR` and the response, whether it answers a byte or not. -/
theorem encRewind_undoes_encPop (hpop : exec .encPop s = .next t) (hrewind : exec .encRewind t = .next u) :
    u = { s with txrd := 0, err := t.err, rsp := u.rsp } := by
  obtain ⟨e, data, v, rfl, heff⟩ := effect_of_exec hpop
  cases hrewind
  cases heff with
  | nothing | encPop => rfl

theorem decRewind_undoes_decPop (hpop : exec .decPop s = .next t) (hrewind : exec .decRewind t = .next u) :
    u = { s with rxrd := 0, err := t.err, rsp := u.rsp } := by
  obtain ⟨e, data, v, rfl, heff⟩ := effect_of_exec hpop
  cases hrewind
  cases heff with
  | nothing | decPop => rfl

/-! ### Building -/

theorem exec_encBuild_of_tooLong (h : maxPayload s < s.txplen.toNat) :
    exec .encBuild s = .next (raise .encoding 0 (txInvalidate s)) := if_pos h

theorem exec_encBuild_of_fits (h : s.txplen.toNat ≤ maxPayload s) :
    exec .encBuild s = .next (answer (zextCount (s.txplen + 4)) (buildFrame s)) := if_neg (Nat.not_lt.mpr h)

/-- R72: a build keeps the staging, which with the parameters is all that it reads. -/
theorem encBuild_repeats (h : exec .encBuild s = .next t) : exec .encBuild t = .next t := by
  rcases Nat.lt_or_ge (maxPayload s) s.txplen.toNat with hlen | hlen
  · rw [exec_encBuild_of_tooLong hlen] at h
    cases h
    exact exec_encBuild_of_tooLong hlen
  · rw [exec_encBuild_of_fits hlen] at h
    cases h
    exact exec_encBuild_of_fits hlen

/-! ### Parsing -/

/-- The received sequence fails one of the three checks of `DEC.PARSE`, and the code of the first that it fails (R165). -/
inductive Refused (s : State) : ErrCode → Prop
  | length (h : s.rxlen.toNat < 4 ∨ frameMax s < s.rxlen.toNat) : Refused s .malformed
  | checksum (hlen : ¬ (s.rxlen.toNat < 4 ∨ frameMax s < s.rxlen.toNat)) (h : ¬ verify (received s) = true) :
      Refused s .checksum
  | shape (hlen : ¬ (s.rxlen.toNat < 4 ∨ frameMax s < s.rxlen.toNat)) (hsum : verify (received s) = true)
      (h : ¬ shape s.params.shape (memRead .rxbuf s 1) (receivedPayload s) = true) : Refused s .malformed

theorem refused_or_accepted (s : State) : (∃ e, Refused s e) ∨ Accepted s := by
  by_cases hlen : s.rxlen.toNat < 4 ∨ frameMax s < s.rxlen.toNat
  · exact .inl ⟨_, .length hlen⟩
  by_cases hsum : verify (received s) = true
  · by_cases hshape : shape s.params.shape (memRead .rxbuf s 1) (receivedPayload s) = true
    · exact .inr ⟨by omega, by omega, hsum, hshape⟩
    · exact .inl ⟨_, .shape hlen hsum hshape⟩
  · exact .inl ⟨_, .checksum hlen hsum⟩

theorem Refused.exec_decParse (h : Refused s e) : exec .decParse s = .next (raise e 0 (rxInvalidate s)) := by
  cases h with
  | length h => exact if_pos h
  | checksum hlen h => exact (if_neg hlen).trans (if_pos h)
  | shape hlen hsum h => exact (if_neg hlen).trans <| (if_neg (not_not.mpr hsum)).trans (if_pos h)

/-- An accepted sequence goes past the three checks to the exception bit. -/
theorem Accepted.exec_decParse (h : Accepted s) : exec .decParse s =
    if exceptionBit (memRead .rxbuf s 1) then .next (raise .mbexc (zextByte (memRead .rxbuf s 2)) (takeException s))
    else .next (answer (zextCount (s.rxlen - 4)) (takeNormal s)) := by
  have hlen : ¬ (s.rxlen.toNat < 4 ∨ frameMax s < s.rxlen.toNat) :=
    not_or.mpr ⟨Nat.not_lt.mpr h.four_le, Nat.not_lt.mpr h.le_frameMax⟩
  exact (if_neg hlen).trans <| (if_neg (not_not.mpr h.verifies)).trans (if_neg (not_not.mpr h.shaped))

theorem Accepted.exec_decParse_exception (h : Accepted s) (hbit : exceptionBit (memRead .rxbuf s 1) = true) :
    exec .decParse s = .next (raise .mbexc (zextByte (memRead .rxbuf s 2)) (takeException s)) :=
  h.exec_decParse.trans (if_pos hbit)

theorem Accepted.exec_decParse_normal (h : Accepted s) (hbit : exceptionBit (memRead .rxbuf s 1) = false) :
    exec .decParse s = .next (answer (zextCount (s.rxlen - 4)) (takeNormal s)) :=
  h.exec_decParse.trans (if_neg (Bool.eq_false_iff.mp hbit))

/-- The same parameters, `RXLEN` and `RXBUF`: all that `DEC.PARSE` reads (R164). -/
structure SameReceived (s t : State) : Prop where
  params : t.params = s.params
  rxlen : t.rxlen = s.rxlen
  rxbuf : t.rxbuf = s.rxbuf

theorem SameReceived.memRead (h : SameReceived s t) (i : Nat) : memRead .rxbuf t i = memRead .rxbuf s i :=
  memRead_congr .rxbuf t s h.rxbuf i

theorem SameReceived.frameMax (h : SameReceived s t) : frameMax t = frameMax s :=
  congrArg (· + 4) (maxPayload_congr t s h.params)

theorem SameReceived.received (h : SameReceived s t) : received t = received s := by
  unfold Machine.received
  rw [h.rxlen]
  exact readRange_congr .rxbuf t s _ _ fun i _ _ => h.memRead i

theorem SameReceived.receivedPayload (h : SameReceived s t) : receivedPayload t = receivedPayload s := by
  unfold Machine.receivedPayload
  rw [h.rxlen]
  exact readRange_congr .rxbuf t s _ _ fun i _ _ => h.memRead i

theorem sameReceived_rxInvalidate (s : State) (e : ErrCode) (data : Word) :
    SameReceived s (respond e data (rxInvalidate s)) :=
  ⟨rfl, rfl, rfl⟩

theorem sameReceived_takeNormal (s : State) (e : ErrCode) (data : Word) :
    SameReceived s (respond e data (takeNormal s)) :=
  ⟨takeFrame_params s, takeFrame_rxlen s, takeFrame_rxbuf s⟩

theorem sameReceived_takeException (s : State) (e : ErrCode) (data : Word) :
    SameReceived s (respond e data (takeException s)) :=
  ⟨takeFrame_params s, takeFrame_rxlen s, takeFrame_rxbuf s⟩

theorem Refused.congr (h : Refused s e) (hsame : SameReceived s t) : Refused t e := by
  have hlen : (t.rxlen.toNat < 4 ∨ frameMax t < t.rxlen.toNat) ↔
      (s.rxlen.toNat < 4 ∨ frameMax s < s.rxlen.toNat) := by rw [hsame.rxlen, hsame.frameMax]
  cases h with
  | length h => exact .length (hlen.mpr h)
  | checksum hl h => exact .checksum (mt hlen.mp hl) (by rwa [hsame.received])
  | shape hl hsum h =>
    exact .shape (mt hlen.mp hl) (by rwa [hsame.received])
      (by rwa [hsame.params, hsame.memRead, hsame.receivedPayload])

theorem Accepted.congr (h : Accepted s) (hsame : SameReceived s t) : Accepted t where
  four_le := by rw [hsame.rxlen]; exact h.four_le
  le_frameMax := by rw [hsame.rxlen, hsame.frameMax]; exact h.le_frameMax
  verifies := by rw [hsame.received]; exact h.verifies
  shaped := by rw [hsame.params, hsame.memRead, hsame.receivedPayload]; exact h.shaped

/-- `ERR` is the code of this answer already, or the answer is `OK` and leaves it. -/
theorem respond_respond (e : ErrCode) (data : Word) (s : State) : respond e data (respond e data s) = respond e data s := by
  cases e <;> rfl

/-- A frame taken twice is the frame taken once, also with an answer between. -/
theorem takeNormal_again (e : ErrCode) (data : Word) (s : State) :
    takeNormal (respond e data (takeNormal s)) = respond e data (takeNormal s) := by
  cases s
  rfl

theorem takeException_again (e : ErrCode) (data : Word) (s : State) :
    takeException (respond e data (takeException s)) = respond e data (takeException s) := by
  cases s
  rfl

/-- R72: a parse keeps what it reads, and writes over the decoded fields what it has written there before. -/
theorem decParse_repeats (h : exec .decParse s = .next t) : exec .decParse t = .next t := by
  rcases refused_or_accepted s with ⟨e, hrefused⟩ | hacc
  · rw [hrefused.exec_decParse] at h
    cases h
    have hsame := sameReceived_rxInvalidate s e 0
    rw [raise_eq_respond, (hrefused.congr hsame).exec_decParse]
    exact congrArg _ (respond_respond e 0 (rxInvalidate s))
  · cases hbit : exceptionBit (memRead .rxbuf s 1) with
    | true =>
      rw [hacc.exec_decParse_exception hbit] at h
      cases h
      have hsame := sameReceived_takeException s .mbexc (zextByte (memRead .rxbuf s 2))
      rw [raise_eq_respond, (hacc.congr hsame).exec_decParse_exception (by rwa [hsame.memRead]), hsame.memRead,
        takeException_again, raise_eq_respond, respond_respond]
    | false =>
      rw [hacc.exec_decParse_normal hbit] at h
      cases h
      have hsame := sameReceived_takeNormal s .ok (zextCount (s.rxlen - 4))
      rw [answer_eq_respond, (hacc.congr hsame).exec_decParse_normal (by rwa [hsame.memRead]), hsame.rxlen,
        takeNormal_again, answer_eq_respond, respond_respond]

/-! ### The obligation -/

/-- Settles O44, one clause for each command of R72. -/
theorem readsHaveOnlyTheListedSideEffects : Obligations.ReadsHaveOnlyTheListedSideEffects := by
  refine ⟨fun r s t h => ⟨?rd, fun hr => ?rdErr⟩, fun s t h => ?verify, fun s t r h hrsp => ?encPop,
    fun s t r h hrsp => ?decPop, fun s t u => encRewind_undoes_encPop, fun s t u => decRewind_undoes_decPop,
    fun s t h => ?parse, fun s t h => ?build⟩
  case rd =>
    obtain ⟨e, data, u, rfl, heff⟩ := effect_of_exec h
    cases heff with
    | nothing => rfl
  case rdErr =>
    obtain ⟨-, hdefined, -⟩ := rdAnswersTheNumberedRegister
    cases (hdefined s r hr).symm.trans h
    rfl
  case verify =>
    cases h
    rfl
  case encPop =>
    obtain ⟨hok, hempty⟩ := pop_by_answer h hrsp
    refine ⟨fun h0 => ?_, hempty⟩
    obtain ⟨⟨-, hrd⟩, rfl⟩ := hok h0
    exact ⟨Count.toNat_add_one hrd, rfl⟩
  case decPop =>
    obtain ⟨hok, hempty⟩ := pop_by_answer h hrsp
    refine ⟨fun h0 => ?_, hempty⟩
    obtain ⟨⟨-, hrd⟩, rfl⟩ := hok h0
    exact ⟨Count.toNat_add_one hrd, rfl⟩
  case parse =>
    obtain ⟨e, data, u, rfl, heff⟩ := effect_of_exec h
    exact ⟨heff.rxbuf_kept nofun, heff.rxlen_kept nofun nofun nofun, decParse_repeats h⟩
  case build =>
    obtain ⟨e, data, u, rfl, heff⟩ := effect_of_exec h
    exact ⟨heff.txunit_kept nofun nofun, heff.txfc_kept nofun nofun, heff.txplen_kept nofun nofun nofun,
      heff.txpay_kept nofun, encBuild_repeats h⟩

end Sys2Proof.Machine
end

section
/-! PROOFS. The decoder read backwards (rules R90 to R94, R99): the format of each page of 256 words, the command a word decodes to, and
the reserved words with their number. -/

namespace Sys2Proof

variable {w : Word} {i : Instr}

/-! ### The fields of a word as numbers -/

/-- A word's value by its fields (R90). -/
theorem toNat_eq_fields (w : Word) :
    w.toNat = 256 * (16 * (wordGrp w).toNat + (wordFn w).toNat) + (wordImm w).toNat := by
  have hw := w.isLt
  simp only [wordGrp, wordFn, wordImm, BitVec.extractLsb'_toNat, Nat.shiftRight_eq_div_pow]
  omega

theorem toNat_div_eq_fields (w : Word) : w.toNat / 256 = 16 * (wordGrp w).toNat + (wordFn w).toNat := by
  have hw := toNat_eq_fields w
  have himm := (wordImm w).isLt
  omega

theorem toNat_mod_eq_imm (w : Word) : w.toNat % 256 = (wordImm w).toNat := by
  have hw := toNat_eq_fields w
  have himm := (wordImm w).isLt
  omega

/-! ### The formats, page by page -/

/-- The format of the words with the first byte `page`, or none when the group or function is reserved (R91, R92, R99). -/
def pageFormat (page : Nat) : Option Format :=
  if page ∈ [0x00, 0x01, 0x02, 0x10, 0x12, 0x20, 0x24, 0x25, 0x26, 0x30, 0x32, 0x33, 0x34] then some .N
  else if page ∈ [0x11, 0x21, 0x22, 0x23, 0x31] then some .B
  else if page = 0x03 then some .R
  else none

/-- The pages of the reserved groups and functions (R99). -/
def ReservedPage (page : Nat) : Prop :=
  0x40 ≤ page ∨ (0x04 ≤ page ∧ page ≤ 0x0F) ∨ (0x13 ≤ page ∧ page ≤ 0x1F) ∨ (0x27 ≤ page ∧ page ≤ 0x2F) ∨
    (0x35 ≤ page ∧ page ≤ 0x3F)

theorem pageFormat_eq_none {page : Nat} (h : ReservedPage page) : pageFormat page = none := by
  unfold ReservedPage at h
  simp only [pageFormat, List.mem_cons, List.not_mem_nil, or_false]
  rw [if_neg (by omega), if_neg (by omega), if_neg (by omega)]

/-- What an arm of the decoder can be: a format applied to a command whose word has the group and function of `w`, or a reserved
class. -/
inductive DecoderArm (w : Word) : Decoded → Prop
  | formatN (i : Instr) (hpage : pageFormat (w.toNat / 256) = some .N) (hwf : i.wf = true)
      (henc : encode i = wordOf (wordGrp w) (wordFn w) 0) : DecoderArm w (decodeN i w)
  | formatB (mk : Byte → Instr) (hpage : pageFormat (w.toNat / 256) = some .B) (hwf : ∀ d, (mk d).wf = true)
      (henc : ∀ d, encode (mk d) = wordOf (wordGrp w) (wordFn w) d) : DecoderArm w (decodeB mk w)
  | formatR (mk : Byte → Instr) (hpage : pageFormat (w.toNat / 256) = some .R)
      (hwf : ∀ r : Byte, r.toNat ≤ 0x0F → (mk r).wf = true)
      (henc : ∀ r, encode (mk r) = wordOf (wordGrp w) (wordFn w) r) : DecoderArm w (decodeR mk w)
  | reserved (why : ReservedClass) (hpage : pageFormat (w.toNat / 256) = none) : DecoderArm w (.illegal why)

section

variable {g f : BitVec 4} {mk : Byte → Instr}

theorem wordOf_grp_fn (hg : (wordGrp w).toNat = g.toNat) (hf : (wordFn w).toNat = f.toNat) (d : Byte) :
    wordOf (wordGrp w) (wordFn w) d = wordOf g f d := by
  rw [BitVec.eq_of_toNat_eq hg, BitVec.eq_of_toNat_eq hf]

theorem pageFormat_of_fields (hg : (wordGrp w).toNat = g.toNat) (hf : (wordFn w).toNat = f.toNat) :
    pageFormat (w.toNat / 256) = pageFormat (16 * g.toNat + f.toNat) := by
  rw [toNat_div_eq_fields, hg, hf]

theorem decoderArm_N (henc : encode i = wordOf g f 0) (hwf : i.wf = true)
    (hpage : pageFormat (16 * g.toNat + f.toNat) = some .N) (hg : (wordGrp w).toNat = g.toNat)
    (hf : (wordFn w).toNat = f.toNat) : DecoderArm w (decodeN i w) :=
  .formatN i ((pageFormat_of_fields hg hf).trans hpage) hwf (henc.trans (wordOf_grp_fn hg hf 0).symm)

theorem decoderArm_B (henc : ∀ d, encode (mk d) = wordOf g f d) (hwf : ∀ d, (mk d).wf = true)
    (hpage : pageFormat (16 * g.toNat + f.toNat) = some .B) (hg : (wordGrp w).toNat = g.toNat)
    (hf : (wordFn w).toNat = f.toNat) : DecoderArm w (decodeB mk w) :=
  .formatB mk ((pageFormat_of_fields hg hf).trans hpage) hwf fun d => (henc d).trans (wordOf_grp_fn hg hf d).symm

theorem decoderArm_rd (hg : (wordGrp w).toNat = 0) (hf : (wordFn w).toNat = 3) : DecoderArm w (decodeR .rd w) :=
  .formatR .rd (pageFormat_of_fields (g := 0) (f := 3) hg hf) (fun _ => decide_eq_true)
    fun r => (wordOf_grp_fn (g := 0) (f := 3) hg hf r).symm

theorem decoderArm_reserved {why : ReservedClass}
    (h : ReservedPage (16 * (wordGrp w).toNat + (wordFn w).toNat)) : DecoderArm w (.illegal why) :=
  .reserved why (by rw [toNat_div_eq_fields, pageFormat_eq_none h])

theorem decoderArm_reservedGroup {why : ReservedClass} (h0 : (wordGrp w).toNat ≠ 0) (h1 : (wordGrp w).toNat ≠ 1)
    (h2 : (wordGrp w).toNat ≠ 2) (h3 : (wordGrp w).toNat ≠ 3) : DecoderArm w (.illegal why) :=
  decoderArm_reserved (.inl (by omega))

end

/-- The arms of the decoder, by format (R91, R92); the others are reserved. -/
theorem decoderArm_decode (w : Word) : DecoderArm w (decode w) := by
  have hgrp := (wordGrp w).isLt
  have hfn := (wordFn w).isLt
  unfold decode
  split
  case h_1 hg hf | h_2 hg hf | h_3 hg hf | h_6 hg hf | h_8 hg hf | h_10 hg hf | h_14 hg hf | h_15 hg hf | h_16 hg hf
    | h_18 hg hf | h_20 hg hf | h_21 hg hf | h_22 hg hf => exact decoderArm_N rfl rfl rfl hg hf
  case h_7 hg hf | h_11 hg hf | h_12 hg hf | h_13 hg hf | h_19 hg hf =>
    exact decoderArm_B (fun _ => rfl) (fun _ => rfl) rfl hg hf
  case h_4 hg hf => exact decoderArm_rd hg hf
  case h_5 | h_9 | h_17 | h_23 =>
    apply decoderArm_reserved
    simp only [ReservedPage, imp_false] at *
    omega
  case h_24 => exact decoderArm_reservedGroup ‹_› ‹_› ‹_› ‹_›

/-- No bit of a defined word is dropped: format `N` asks for a zero `IMM`, the others keep it as the operand. -/
theorem encode_of_decode (h : decode w = .command i) : encode i = w ∧ i.wf = true := by
  have harm := decoderArm_decode w
  rw [h] at harm
  generalize hd : Decoded.command i = d at harm
  cases harm with
  | formatN j hpage hwf henc =>
    unfold decodeN at hd
    split at hd
    case isTrue himm =>
      cases hd
      exact ⟨by rw [henc, ← himm, wordOf_fields], hwf⟩
    case isFalse => cases hd
  | formatB mk hpage hwf henc =>
    cases hd
    exact ⟨by rw [henc, wordOf_fields], hwf _⟩
  | formatR mk hpage hwf henc =>
    unfold decodeR at hd
    split at hd
    case isTrue hr =>
      cases hd
      exact ⟨by rw [henc, wordOf_fields], hwf _ hr⟩
    case isFalse => cases hd
  | reserved why => cases hd

/-! ### The reserved words -/

theorem decodeN_illegal_iff : (∃ why, decodeN i w = .illegal why) ↔ (wordImm w).toNat ≠ 0 := by
  unfold decodeN
  split
  case isTrue himm => simp [himm]
  case isFalse himm => exact ⟨fun _ h => himm (BitVec.eq_of_toNat_eq h), fun _ => ⟨_, rfl⟩⟩

theorem decodeR_illegal_iff (mk : Byte → Instr) (w : Word) :
    (∃ why, decodeR mk w = .illegal why) ↔ 0x0F < (wordImm w).toNat := by
  unfold decodeR
  split
  case isTrue hr => simp [hr]
  case isFalse hr => simpa using hr

/-- Whether the word with this `IMM` is reserved: format `N` asks for a zero `IMM`, format `B` takes any, and format `R` one up to
`0x0F` (R91, R99). -/
def reservedImm : Option Format → Nat → Bool
  | some .N, imm => decide (imm ≠ 0)
  | some .B, _ => false
  | some .R, imm => decide (0x0F < imm)
  | none, _ => true

theorem decode_illegal_iff (w : Word) :
    (∃ why, decode w = .illegal why) ↔ reservedImm (pageFormat (w.toNat / 256)) (w.toNat % 256) = true := by
  rw [toNat_mod_eq_imm]
  generalize hd : decode w = d
  have harm : DecoderArm w d := hd ▸ decoderArm_decode w
  cases harm with
  | formatN i hpage => rw [hpage, decodeN_illegal_iff, reservedImm, decide_eq_true_eq]
  | formatB mk hpage => simp [hpage, decodeB, reservedImm]
  | formatR mk hpage => rw [hpage, decodeR_illegal_iff, reservedImm, decide_eq_true_eq]
  | reserved why hpage => simp [hpage, reservedImm]

/-- A reserved page adds a range of R99, a page of format `N` its words with an operand, and that of `RD` the undefined registers. -/
theorem reserved_iff_classes (n : Nat) : reservedImm (pageFormat (n / 256)) (n % 256) = true ↔
    0x4000 ≤ n ∨
    (0x0400 ≤ n ∧ n ≤ 0x0FFF) ∨
    (0x1300 ≤ n ∧ n ≤ 0x1FFF) ∨
    (0x2700 ≤ n ∧ n ≤ 0x2FFF) ∨
    (0x3500 ≤ n ∧ n ≤ 0x3FFF) ∨
    (n / 256 ∈ [0x00, 0x01, 0x02, 0x10, 0x12, 0x20, 0x24, 0x25, 0x26, 0x30, 0x32, 0x33, 0x34] ∧ n % 256 ≠ 0) ∨
    (0x0310 ≤ n ∧ n ≤ 0x03FF) := by
  simp only [pageFormat, List.mem_cons, List.not_mem_nil, or_false]
  split_ifs with hN hB hR
  case pos => simp only [reservedImm, decide_eq_true_eq]; omega
  case pos => simp only [reservedImm, Bool.false_eq_true, false_iff]; omega
  case pos => simp only [reservedImm, decide_eq_true_eq]; omega
  case neg => simp only [reservedImm, true_iff]; omega

/-! ### The number of reserved words -/

/-- Counting `m * n` numbers as `n` blocks of `m`. -/
theorem countP_range_mul (p : Nat → Bool) (m n : Nat) : (List.range (m * n)).countP p =
    ((List.range n).map fun q => (List.range m).countP fun r => p (m * q + r)).sum := by
  induction n with
  | zero => rfl
  | succ n ih =>
    rw [Nat.mul_succ, List.range_add, List.countP_append, ih, List.range_succ, List.map_append, List.sum_append,
      List.countP_map]
    simp [Function.comp_def]

/-- How many words of a page are reserved. -/
def reservedInPage : Option Format → Nat
  | some .N => 255
  | some .B => 0
  | some .R => 240
  | none => 256

theorem countP_reservedImm (f : Option Format) : (List.range 256).countP (reservedImm f) = reservedInPage f := by
  rcases f with _ | _ | _ | _ <;> decide +kernel

theorem countP_reserved_pages :
    (List.range 65536).countP (fun n => reservedImm (pageFormat (n / 256)) (n % 256)) = 64227 := by
  have hpage (q : Nat) : (List.range 256).countP
      (fun r => reservedImm (pageFormat ((256 * q + r) / 256)) ((256 * q + r) % 256)) =
      reservedInPage (pageFormat q) := by
    rw [← countP_reservedImm]
    refine List.countP_congr fun r hr => ?_
    have hlt : r < 256 := List.mem_range.mp hr
    rw [show (256 * q + r) / 256 = q by omega, show (256 * q + r) % 256 = r by omega]
  calc
    _ = ((List.range 256).map fun q => reservedInPage (pageFormat q)).sum := by
      rw [show 65536 = 256 * 256 from rfl, countP_range_mul]
      simp only [hpage]
    _ = 64227 := by decide +kernel

theorem decodeTableWord_isNone_iff {n : Nat} (h : n < 65536) :
    (decodeTableWord 16 n).isNone = true ↔ reservedImm (pageFormat (n / 256)) (n % 256) = true := by
  have hn : (BitVec.ofNat 16 (n % 2 ^ 16)).toNat = n := by
    rw [BitVec.toNat_ofNat]
    omega
  unfold decodeTableWord
  generalize BitVec.ofNat 16 (n % 2 ^ 16) = w at hn ⊢
  rw [← hn, ← decode_illegal_iff]
  cases decode w with
  | command i => simp
  | illegal why => simp

theorem length_reserved_words : ((List.range 65536).filter fun n => (decodeTableWord 16 n).isNone).length = 64227 := by
  rw [← List.countP_eq_length_filter, ← countP_reserved_pages]
  exact List.countP_congr fun n hn => decodeTableWord_isNone_iff (List.mem_range.mp hn)

/-! ### The obligations -/

/-- Settles O1: one case per format of R91. -/
theorem decodeOfEncodeIsTheCommand : Obligations.DecodeOfEncodeIsTheCommand := decode_encode

/-- Settles O2, by the formats of the decoder's arms. -/
theorem encodeOfDecodeIsTheWord : Obligations.EncodeOfDecodeIsTheWord := fun _ _ => encode_of_decode

/-- Settles O5 by running the decoder. -/
theorem writtenWordsDecodeToTheirCommands : Obligations.WrittenWordsDecodeToTheirCommands := by
  unfold Obligations.WrittenWordsDecodeToTheirCommands
  decide

/-- Settles O4: the classes and their number from the formats of the pages, the answer from that of a reserved word. -/
theorem reservedWordsAreAnsweredIllegal : Obligations.ReservedWordsAreAnsweredIllegal :=
  ⟨fun w => (decode_illegal_iff w).trans (reserved_iff_classes w.toNat), length_reserved_words,
    fun _ _ _ h => Machine.execWord_of_illegal h⟩

end Sys2Proof
end

section
/-! PROOFS. The decoder and the opcode map (rules R92, R94): the row a word selects and the operand give the word, and so its command. -/

namespace Sys2Proof

variable {w : Word} {i : Instr} {row : OpcodeRow}

/-! ### The rows of the map -/

/-- Every row's mask covers `GRP` and `FN`, and its match bits lie in them (R92). -/
theorem opcodeTable_masks : ∀ row ∈ opcodeTable,
    row.mask &&& 0xFF00 = 0xFF00 ∧ row.matchBits &&& 0xFF00 = row.matchBits := by decide

theorem opcodeTable_matchBits_nodup : (opcodeTable.map (·.matchBits)).Nodup := by decide

theorem opcodeTable_mnemonic_nodup : (opcodeTable.map (·.mnemonic)).Nodup := by decide

/-- `RD` is the only command of format `R` (R92). -/
theorem format_eq_R_iff : ∀ row ∈ opcodeTable, row.format = .R ↔ row.mnemonic = "RD" := by decide

theorem mnemonic_eq_RD (h : i.mnemonic = "RD") : ∃ r, i = .rd r := by
  cases i with
  | rd r => exact ⟨r, rfl⟩
  | _ => simp [Instr.mnemonic] at h

/-- The first byte of a word that matches a row is the row's (R92). -/
theorem highByte_of_match (hrow : row ∈ opcodeTable) (h : w &&& row.mask = row.matchBits) :
    w &&& 0xFF00 = row.matchBits := by
  obtain ⟨hmask, hmatch⟩ := opcodeTable_masks row hrow
  rw [← hmask, ← BitVec.and_assoc, h, hmatch]

/-- No word matches two rows (R92): the rows differ in their first bytes. -/
theorem row_unique {row₁ row₂ : OpcodeRow} (h₁ : row₁ ∈ opcodeTable) (h₂ : row₂ ∈ opcodeTable)
    (hw₁ : w &&& row₁.mask = row₁.matchBits) (hw₂ : w &&& row₂.mask = row₂.matchBits) : row₁ = row₂ :=
  List.inj_on_of_nodup_map opcodeTable_matchBits_nodup h₁ h₂
    ((highByte_of_match h₁ hw₁).symm.trans (highByte_of_match h₂ hw₂))

theorem wordImm_getLsbD (w : Word) {k : Nat} (h : k < 8) : (wordImm w).getLsbD k = w.getLsbD k := by
  simp [wordImm, h]

theorem highByte_getLsbD (w : Word) {k : Nat} (h : 8 ≤ k) (hk : k < 16) : (w &&& 0xFF00).getLsbD k = w.getLsbD k := by
  have hmask : (0xFF00 : Word).getLsbD k = true := by interval_cases k <;> decide
  rw [BitVec.getLsbD_and, hmask, Bool.and_true]

/-- A word is its first byte and its `IMM` (R90). -/
theorem eq_of_highByte_of_imm {v : Word} (hhigh : w &&& 0xFF00 = v &&& 0xFF00) (himm : wordImm w = wordImm v) :
    w = v := by
  apply BitVec.eq_of_getLsbD_eq
  intro k hk
  by_cases hlow : k < 8
  · rw [← wordImm_getLsbD w hlow, himm, wordImm_getLsbD v hlow]
  · have hle : 8 ≤ k := Nat.le_of_not_lt hlow
    rw [← highByte_getLsbD w hle hk, hhigh, highByte_getLsbD v hle hk]

/-- The family `EncodeMatchesRow` as one lemma. -/
theorem encode_matches_row (i : Instr) : Laws.EncodeMatchesRow.Statement i := by
  open Laws.EncodeMatchesRow in
  cases i with
  | nop => exact nop
  | sreset => exact sreset
  | clrerr => exact clrerr
  | rd r => exact rd r
  | crcInit => exact crcInit
  | crcByte d => exact crcByte d
  | crcVerify => exact crcVerify
  | encStart => exact encStart
  | encUnit d => exact encUnit d
  | encFc d => exact encFc d
  | encPush d => exact encPush d
  | encBuild => exact encBuild
  | encPop => exact encPop
  | encRewind => exact encRewind
  | decStart => exact decStart
  | decPush d => exact decPush d
  | decParse => exact decParse
  | decPop => exact decPop
  | decRewind => exact decRewind

theorem wf_of_rd (h : ∀ r, i = .rd r → r.toNat ≤ 0x0F) : i.wf = true := by
  cases i with
  | rd r => exact decide_eq_true (h r rfl)
  | _ => rfl

/-- `i` is the command a row of the map stands for with the operand `w[7:0]`, and `w` selects the row (R94). -/
def RowSelects (row : OpcodeRow) (w : Word) (i : Instr) : Prop :=
  w &&& row.mask = row.matchBits ∧ (row.format = .R → (wordImm w).toNat ≤ 0x0F) ∧
    i.mnemonic = row.mnemonic ∧ i.operandByte = wordImm w

/-- A command's word selects the row with its mnemonic. -/
theorem exists_rowSelects_of_decode (h : decode w = .command i) : ∃ row ∈ opcodeTable, RowSelects row w i := by
  obtain ⟨rfl, hwf⟩ := encode_of_decode h
  obtain ⟨himm, row, hrow, hmnemonic, hmatch⟩ := encode_matches_row i
  refine ⟨row, hrow, hmatch, fun hR => ?_, hmnemonic.symm, himm.symm⟩
  obtain ⟨r, rfl⟩ := mnemonic_eq_RD (hmnemonic.symm.trans ((format_eq_R_iff row hrow).mp hR))
  rw [himm]
  exact of_decide_eq_true hwf

/-- The row and the operand fix both bytes of the word, so it is the command's word. -/
theorem RowSelects.decode (hrow : row ∈ opcodeTable) (h : RowSelects row w i) :
    decode w = .command i := by
  obtain ⟨hw, hR, hmnemonic, hoperand⟩ := h
  have hwf : i.wf = true := by
    apply wf_of_rd
    rintro r rfl
    have hr : r = wordImm w := hoperand
    rw [hr]
    exact hR ((format_eq_R_iff row hrow).mpr hmnemonic.symm)
  obtain ⟨himm, row', hrow', hmnemonic', hi⟩ := encode_matches_row i
  have hsame : row' = row :=
    List.inj_on_of_nodup_map opcodeTable_mnemonic_nodup hrow' hrow (hmnemonic'.trans hmnemonic)
  subst hsame
  have hword : w = encode i :=
    eq_of_highByte_of_imm ((highByte_of_match hrow hw).trans (highByte_of_match hrow hi).symm)
      (hoperand.symm.trans himm.symm)
  rw [hword]
  exact decode_encode i hwf

/-- Settles O3: the command a word decodes to, and the command its row of the map stands for, have that word. -/
theorem decoderFollowsTheOpcodeMap : Obligations.DecoderFollowsTheOpcodeMap :=
  ⟨fun _ _ => ⟨exists_rowSelects_of_decode, fun ⟨_, hrow, h⟩ => RowSelects.decode hrow h⟩,
    fun _ _ h₁ _ h₂ => row_unique h₁ h₂⟩

end Sys2Proof
end

section
/-! PROOFS. The placed word (rules R90, R94, R98) and the data of a failing command (rule R96). -/

namespace Sys2Proof.Machine

variable {s t : State} {w : Word} {i : Instr}

/-! ### The placed word -/

/-- The host offers the 16 bits of the word as they stand (R90, R98). -/
theorem withFetchWord_toNat (s : State) (w : Word) : s.withFetchWord 16 w.toNat = offerFirst w s := by
  have hw : w.toNat % 2 ^ 16 = w.toNat := Nat.mod_eq_of_lt w.isLt
  rw [State.withFetchWord, hw, BitVec.ofNat_toNat, BitVec.setWidth_eq]

/-- A word offered first is what the next step accepts, and the rest of the state is as before (R98). -/
theorem step_offerFirst (w : Word) (s : State) : step (offerFirst w s) = execWord w s :=
  step_of_command rfl

/-- Settles O8: the offered word is accepted, and decodes to its command. -/
theorem placedWordRunsNext : Obligations.PlacedWordRunsNext := by
  intro s i hwf
  rw [withFetchWord_toNat, step_offerFirst, execWord_encode hwf]

/-! ### The data of a failing command -/

/-- If the outcome fails, it fails with data 0 and another code than `MBEXC`. -/
def FailsWithoutData (o : Host.Outcome State Fault Refusal) : Prop :=
  ∀ t r, o = .next t → t.rsp = some r → r.err ≠ 0 → r.err ≠ 4 ∧ r.data = 0

theorem failsWithoutData_answer (data : Word) (u : State) : FailsWithoutData (.next (answer data u)) := by
  intro t r h hrsp hfail
  cases h
  cases hrsp
  exact absurd rfl hfail

theorem failsWithoutData_raise {e : ErrCode} (he : e.code ≠ 4) (u : State) : FailsWithoutData (.next (raise e 0 u)) := by
  intro t r h hrsp _
  cases h
  cases hrsp
  exact ⟨he, rfl⟩

theorem failsWithoutData_ite {c : Prop} [Decidable c] {o o' : Host.Outcome State Fault Refusal} (h : FailsWithoutData o)
    (h' : FailsWithoutData o') : FailsWithoutData (if c then o else o') := by
  split
  · exact h
  · exact h'

theorem execRd_failsWithoutData (r : Byte) (s : State) : FailsWithoutData (execRd r s) := by
  unfold execRd
  split
  · exact failsWithoutData_answer _ s
  · exact failsWithoutData_raise (by decide) s

/-- The commands with a check of their own first, then those that answer `OK` in every state. -/
theorem exec_failsWithoutData (h : i ≠ .decParse) (s : State) : FailsWithoutData (exec i s) := by
  cases i with
  | decParse => exact absurd rfl h
  | rd r => exact execRd_failsWithoutData r s
  | encBuild => exact failsWithoutData_ite (failsWithoutData_raise (by decide) _) (failsWithoutData_answer _ _)
  | encPop | decPop => exact failsWithoutData_ite (failsWithoutData_answer _ _) (failsWithoutData_raise (by decide) _)
  | nop | sreset | clrerr | crcInit | crcVerify | encStart | encRewind | decStart | decRewind =>
    exact failsWithoutData_answer _ _
  | crcByte d | encUnit d | encFc d | encPush d | decPush d => exact failsWithoutData_answer _ _

theorem Refused.code_ne_mbexc {e : ErrCode} (h : Refused s e) : e.code ≠ 4 := by
  cases h <;> decide

/-- R167: an exception response fails with its code as data; any other sequence that fails answers data 0 (R165). -/
theorem decParse_fails (h : exec .decParse s = .next t) {r : Response} (hrsp : t.rsp = some r) (hfail : r.err ≠ 0) :
    (r.err ≠ 4 ∧ r.data = 0) ∨ (r.err = 4 ∧ t.rxexc = true ∧ r.data = zextByte t.excode) := by
  rcases refused_or_accepted s with ⟨e, hrefused⟩ | hacc
  · rw [hrefused.exec_decParse] at h
    exact .inl (failsWithoutData_raise hrefused.code_ne_mbexc _ t r h hrsp hfail)
  · cases hbit : exceptionBit (memRead .rxbuf s 1) with
    | true =>
      rw [hacc.exec_decParse_exception hbit] at h
      cases h
      cases hrsp
      exact .inr ⟨rfl, rfl, rfl⟩
    | false =>
      rw [hacc.exec_decParse_normal hbit] at h
      exact .inl (failsWithoutData_answer _ _ t r h hrsp hfail)

/-- A failing word answers data 0, or is `DEC.PARSE` with an exception response (R96). -/
theorem execWord_fails (h : execWord w s = .next t) {r : Response} (hrsp : t.rsp = some r) (hfail : r.err ≠ 0) :
    (r.err ≠ 4 ∧ r.data = 0) ∨
      (r.err = 4 ∧ decode w = .command .decParse ∧ t.rxexc = true ∧ r.data = zextByte t.excode) := by
  cases hd : decode w with
  | illegal why =>
    rw [execWord_of_illegal hd] at h
    exact .inl (failsWithoutData_raise (e := .illegal) (by decide) s t r h hrsp hfail)
  | command i =>
    rw [execWord_of_command hd] at h
    by_cases hi : i = .decParse
    · subst hi
      exact (decParse_fails h hrsp hfail).imp_right fun ⟨hcode, hdata⟩ => ⟨hcode, rfl, hdata⟩
    · exact .inl (exec_failsWithoutData hi s t r h hrsp hfail)

/-- Settles O47, from the two ways a word can fail. -/
theorem failingCommandsAnswerNoData : Obligations.FailingCommandsAnswerNoData := by
  intro w s t r h hrsp hfail
  rcases execWord_fails h hrsp hfail with ⟨hcode, hdata⟩ | ⟨hcode, hparse⟩
  · exact ⟨fun _ => hdata, fun hmbexc => absurd hmbexc hcode⟩
  · exact ⟨fun hother => absurd hcode hother, fun _ => hparse⟩

end Sys2Proof.Machine
end

section
/-! PROOFS. The checksum as a linear and invertible function of the register and the byte (rules R120 to R122): its table form. -/

namespace Sys2Proof.Machine

variable {c c' : Word} {hi lo hi' lo' a b d : Byte}

/-! ### A register as its two bytes -/

/-- The register with these two bytes (R14, R63). -/
def wordOfBytes (hi lo : Byte) : Word := hi ++ lo

theorem exists_wordOfBytes (c : Word) : ∃ hi lo, c = wordOfBytes hi lo :=
  ⟨highByte c, lowByte c, (BitVec.extractLsb'_append_extractLsb' (w := 8) (len := 8)).symm⟩

@[simp] theorem lowByte_wordOfBytes (hi lo : Byte) : lowByte (wordOfBytes hi lo) = lo :=
  BitVec.extractLsb'_append_eq_right

@[simp] theorem highByte_wordOfBytes (hi lo : Byte) : highByte (wordOfBytes hi lo) = hi :=
  BitVec.extractLsb'_append_eq_left

@[simp] theorem wordOfBytes_inj : wordOfBytes hi lo = wordOfBytes hi' lo' ↔ hi = hi' ∧ lo = lo' := by
  refine ⟨fun h => ⟨?_, ?_⟩, fun ⟨hhi, hlo⟩ => by rw [hhi, hlo]⟩
  · simpa using congrArg highByte h
  · simpa using congrArg lowByte h

@[simp] theorem wordOfBytes_xor (hi lo hi' lo' : Byte) :
    wordOfBytes hi lo ^^^ wordOfBytes hi' lo' = wordOfBytes (hi ^^^ hi') (lo ^^^ lo') :=
  BitVec.xor_append

theorem zextByte_eq_wordOfBytes (d : Byte) : zextByte d = wordOfBytes 0 d :=
  BitVec.setWidth_eq_append (by decide)

theorem wordOfBytes_getLsbD (hi lo : Byte) (k : Nat) :
    (wordOfBytes hi lo).getLsbD k = if k < 8 then lo.getLsbD k else hi.getLsbD (k - 8) :=
  BitVec.getLsbD_append

theorem wordOfBytes_ushiftRight (hi lo : Byte) : wordOfBytes hi lo >>> 8 = wordOfBytes 0 hi := by
  apply BitVec.eq_of_getLsbD_eq
  intro k _
  by_cases hk : k < 8
  · simp [wordOfBytes_getLsbD, hk]
  · simp [wordOfBytes_getLsbD, hk, BitVec.getLsbD_of_ge hi k (by omega)]

theorem lowByte_toNat (c : Word) : (lowByte c).toNat = c.toNat % 256 := by
  simp [lowByte]

/-! ### The passes -/

theorem crcShifts_eq_iterate (n : Nat) (c : Word) : crcShifts n c = crcShift^[n] c := by
  induction n generalizing c with
  | zero => rfl
  | succ n ih => exact ih (crcShift c)

theorem crcShifts_inj {n : Nat} : crcShifts n c = crcShifts n c' ↔ c = c' :=
  ⟨crcShifts_injective n c c', congrArg _⟩

/-- Passes that test a 0 only shift: the polynomial is not applied (R120). -/
theorem crcShifts_of_low_zeros (n : Nat) (c : Word) (h : ∀ k, k < n → c.getLsbD k = false) :
    crcShifts n c = c >>> n := by
  induction n generalizing c with
  | zero => simp [crcShifts]
  | succ n ih =>
    have hshift : crcShift c = c >>> 1 := if_neg (by simpa using h 0 (Nat.succ_pos n))
    rw [crcShifts_succ, hshift, ih, ← BitVec.shiftRight_add, Nat.add_comm]
    intro k hk
    rw [BitVec.getLsbD_ushiftRight]
    exact h (1 + k) (by omega)

/-- Over a whole byte, passes move the high byte down and leave the polynomial to the low byte (R122's reason). -/
theorem crcShifts_high_byte (hi : Byte) : crcShifts 8 (wordOfBytes hi 0) = wordOfBytes 0 hi := by
  rw [crcShifts_of_low_zeros, wordOfBytes_ushiftRight]
  intro k hk
  simp [wordOfBytes_getLsbD, hk]

/-! ### One byte into the checksum -/

/-- The high byte moves down, and the table's entry for the low byte is applied (R122). -/
theorem crcStep_wordOfBytes (hi lo d : Byte) :
    crcStep (wordOfBytes hi lo) d = wordOfBytes 0 hi ^^^ crcTableEntry (lo ^^^ d) := by
  have hsplit : wordOfBytes hi lo ^^^ zextByte d = wordOfBytes hi 0 ^^^ zextByte (lo ^^^ d) := by
    simp [zextByte_eq_wordOfBytes]
  rw [crcStep, hsplit, crcShifts_xor, crcShifts_high_byte, crcTableEntry]

theorem crcStepByTable_eq_crcStep (c : Word) (d : Byte) : crcStepByTable c d = crcStep c d := by
  obtain ⟨hi, lo, rfl⟩ := exists_wordOfBytes c
  simp [crcStepByTable, crcStep_wordOfBytes, wordOfBytes_ushiftRight, zextByte_eq_wordOfBytes]

/-- The printed values of R122 are the computed ones, in order. -/
theorem crcTable_eq_map : crcTable = (List.range 256).map fun i => crcTableEntry (BitVec.ofNat 8 i) := by decide +kernel

theorem crcTable_getD (i : Byte) : crcTable.getD i.toNat 0 = crcTableEntry i := by
  have hi : i.toNat < 256 := i.isLt
  simp [crcTable_eq_map, hi]

/-- Settles O18: the iterated pass is the model's own. -/
theorem checksumIsTheReflectedCrc : Obligations.ChecksumIsTheReflectedCrc :=
  ⟨fun c d => crcShifts_eq_iterate 8 (c ^^^ zextByte d), crc16_nil, crc16_concat⟩

/-- Settles O19: the passes are linear, so the register comes apart into its two bytes, and the low one's part is in the table. -/
theorem tableFormIsTheSameFunction : Obligations.TableFormIsTheSameFunction := by
  refine ⟨fun c d => ?printed, crcStepByTable_eq_crcStep, by simp [crcTable_eq_map]⟩
  case printed =>
    rw [← crcStepByTable_eq_crcStep, crcStepByTable, ← crcTable_getD, lowByte_toNat, zextByte]

end Sys2Proof.Machine
end

section
/-! PROOFS. The sequences that verify (rules R123, R124, R129 to R132): the residue, and that no byte can be replaced unnoticed. -/

namespace Sys2Proof.Machine

variable {c c' v : Word} {a b : Byte} {s t : List Byte}

/-! ### The residue -/

/-- Only the byte that cancels the register brings it to 0. -/
theorem crcStep_eq_zero_iff : crcStep c b = 0 ↔ c = zextByte b := by
  have hzero : crcShifts 8 0 = 0 := crcShifts_high_byte 0
  rw [crcStep, ← hzero, crcShifts_inj]
  exact BitVec.xor_eq_zero_iff

/-- Two bytes bring the register to 0 exactly when they are its own, low byte first (R130, R131). -/
theorem crcStep_crcStep_eq_zero_iff : crcStep (crcStep c a) b = 0 ↔ c = wordOfBytes b a := by
  obtain ⟨hi, lo, rfl⟩ := exists_wordOfBytes c
  rw [crcStep_eq_zero_iff, crcStep, zextByte_eq_wordOfBytes b, ← crcShifts_high_byte, crcShifts_inj]
  simp [zextByte_eq_wordOfBytes]

theorem pair_eq_wireBytes_iff : [a, b] = wireBytes v ↔ v = wordOfBytes b a := by
  obtain ⟨hi, lo, rfl⟩ := exists_wordOfBytes v
  simp [wireBytes, eq_comm, and_comm]

/-- R124 on a sequence whose last two bytes are set apart. -/
theorem verify_append_pair : verify (s ++ [a, b]) = true ↔ crc16 s = wordOfBytes b a := by
  simp [verify, pair_eq_wireBytes_iff]

theorem crc16_append_pair (s : List Byte) (a b : Byte) : crc16 (s ++ [a, b]) = crcStep (crcStep (crc16 s) a) b := by
  simp [crc16]

theorem exists_append_pair (h : 2 ≤ t.length) : ∃ (s : List Byte) (a b : Byte), t = s ++ [a, b] := by
  obtain ⟨a, b, hab⟩ := List.length_eq_two.mp (show (t.drop (t.length - 2)).length = 2 by simp; omega)
  exact ⟨t.take (t.length - 2), a, b, by rw [← hab, List.take_append_drop]⟩

theorem crc16_eq_zero_iff (h : 2 ≤ t.length) : crc16 t = 0 ↔ verify t = true := by
  obtain ⟨s, a, b, rfl⟩ := exists_append_pair h
  rw [crc16_append_pair, crcStep_crcStep_eq_zero_iff, verify_append_pair]

@[simp] theorem withCrc_length (s : List Byte) : (withCrc s).length = s.length + 2 := by
  simp [withCrc, wireBytes]

theorem verify_withCrc (s : List Byte) : verify (withCrc s) = true :=
  verify_append_pair.mpr (pair_eq_wireBytes_iff.mp rfl)

theorem crc16_withCrc (s : List Byte) : crc16 (withCrc s) = 0 :=
  (crc16_eq_zero_iff (by simp)).mpr (verify_withCrc s)

/-- Settles O25, from the two bytes that bring a register to 0. -/
theorem residueIsZeroExactlyWhenVerified : Obligations.ResidueIsZeroExactlyWhenVerified :=
  ⟨crc16_withCrc, fun _ => crc16_eq_zero_iff⟩

/-! ### A replaced byte -/

theorem crcStep_left_inj : crcStep c b = crcStep c' b ↔ c = c' := by
  rw [crcStep, crcStep, crcShifts_inj, BitVec.xor_left_inj]

theorem crcStep_right_inj : crcStep c a = crcStep c b ↔ a = b := by
  rw [crcStep, crcStep, crcShifts_inj, BitVec.xor_right_inj]
  simp [zextByte_eq_wordOfBytes]

/-- Whatever bytes follow, two different registers stay different. -/
theorem foldl_crcStep_inj : t.foldl crcStep c = t.foldl crcStep c' ↔ c = c' := by
  induction t generalizing c c' with
  | nil => rfl
  | cons d t ih => rw [List.foldl_cons, List.foldl_cons, ih, crcStep_left_inj]

/-- R132's reason: the checksum tells apart any two values of one byte, wherever it stands. -/
theorem crc16_replace_inj : crc16 (s ++ a :: t) = crc16 (s ++ b :: t) ↔ a = b := by
  simp only [crc16, List.foldl_append, List.foldl_cons]
  rw [foldl_crcStep_inj, crcStep_right_inj]

theorem bit_ne_zero : ∀ k : Fin 8, 1#8 <<< k.val ≠ 0 := by decide

/-- Settles O26: the residue of the sequence is 0, and one byte replaced makes it another. -/
theorem oneInvertedBitIsDetected : Obligations.OneInvertedBitIsDetected := by
  intro s i k hi
  obtain ⟨pre, d, post, hseq, _, hflip⟩ := List.exists_of_modify (fun b : Byte => b ^^^ (1#8 <<< k.val)) hi
  have hlen : 2 ≤ (flipBit (withCrc s) i k).length := by simp [flipBit]
  have hchecksum : crc16 (flipBit (withCrc s) i k) ≠ 0 := by
    rw [← crc16_withCrc s, flipBit, hflip, hseq, ne_eq, crc16_replace_inj]
    simpa using bit_ne_zero k
  exact Bool.eq_false_iff.mpr fun hverify => hchecksum ((crc16_eq_zero_iff hlen).mpr hverify)

end Sys2Proof.Machine
end

section
/-! PROOFS. The commands of the CRC Engine (rules R125 to R128): the answer of each, and that no other command touches `CRC`. -/

namespace Sys2Proof.Machine

variable {s s' t u : State} {i : Instr} {w : Word}

/-! ### The three commands -/

/-- `rsp <- (OK, data)` writes the response and nothing else (R224). -/
theorem answer_eq (data : Word) (s : State) : answer data s = { s with rsp := some { err := 0, data := data } } := rfl

/-- Settles O20: the word is the encoder's, and an `OK` answer leaves `ERR` alone. -/
theorem crcInitLoadsTheInitialValue : Obligations.CrcInitLoadsTheInitialValue :=
  ⟨decode_encode .crcInit rfl, fun s => congrArg Host.Outcome.next (answer_eq 0 { s with crc := 0xFFFF })⟩

/-- Settles O21: the word is the encoder's, and every byte is a well-formed operand. -/
theorem crcByteTakesOneByte : Obligations.CrcByteTakesOneByte := by
  refine ⟨fun d => ?decoded, fun d s => congrArg Host.Outcome.next (answer_eq _ _), by decide, by decide⟩
  case decoded =>
    have hword : encode (.crcByte d) = 0x1100 ||| d.setWidth 16 := wordOf_eq_or 1 1 d
    rw [← hword]
    exact decode_encode (.crcByte d) rfl

theorem exec_crcVerify_of_verified (hfits : s.rxlen.toNat ≤ frameMax s) (hverify : verify (received s) = true) :
    exec .crcVerify s = .next (answer 1 s) :=
  congrArg (fun data => Host.Outcome.next (answer data s)) (if_pos ⟨hfits, hverify⟩)

theorem exec_crcVerify_of_not_verified (h : ¬ (s.rxlen.toNat ≤ frameMax s ∧ verify (received s) = true)) :
    exec .crcVerify s = .next (answer 0 s) :=
  congrArg (fun data => Host.Outcome.next (answer data s)) (if_neg h)

theorem verify_of_short {t : List Byte} (h : t.length < 2) : verify t = false := by
  simp [verify, h]

/-- Settles O22: both answers leave the state as it was; fewer than two bytes do not verify. -/
theorem crcVerifyAnswersTheCheck : Obligations.CrcVerifyAnswersTheCheck := by
  refine ⟨decode_encode .crcVerify rfl, fun s => exec_crcVerify_of_verified, fun s h => ?failed, fun s h => ?short⟩
  case failed =>
    refine exec_crcVerify_of_not_verified fun ⟨hfits, hverify⟩ => ?_
    rcases h with hover | hfalse
    · exact absurd hfits (Nat.not_le.mpr hover)
    · exact Bool.eq_false_iff.mp hfalse hverify
  case short =>
    have hfalse : verify (received s) = false := verify_of_short (by simpa [received] using h)
    exact exec_crcVerify_of_not_verified fun ⟨_, hverify⟩ => Bool.eq_false_iff.mp hfalse hverify

/-! ### No other command touches `CRC` -/

/-- The same in everything but the running checksum. -/
def SameButCrc (s s' : State) : Prop := { s' with crc := s.crc } = s

theorem RegName.ofNumber_eq_crc {r : Byte} (h : RegName.ofNumber r = some .crc) : r = 0x01 := by
  rcases Nat.lt_or_ge 0x0F r.toNat with hr | hr
  · rw [RegName.ofNumber_eq_none hr] at h
    cases h
  · obtain ⟨n, rfl, hn⟩ := RegName.exists_number hr
    cases hn.symm.trans h
    rfl

theorem execRd_sameButCrc {r : Byte} (hr : r ≠ 0x01) (c : Word) :
    AnswersAlike SameButCrc (execRd r s) (execRd r { s with crc := c }) := by
  unfold execRd
  cases hn : RegName.ofNumber r with
  | none => exact answersAlike_raise rfl rfl
  | some n =>
    cases n with
    | crc => exact absurd (RegName.ofNumber_eq_crc hn) hr
    | _ => exact answersAlike_answer rfl rfl

/-- The commands with a check of their own first; none of the checks looks at `CRC`. -/
theorem exec_sameButCrc (hbyte : ∀ d, i ≠ .crcByte d) (hrd : i ≠ .rd 0x01) (c : Word) :
    AnswersAlike SameButCrc (exec i s) (exec i { s with crc := c }) := by
  cases i with
  | crcByte d => exact absurd rfl (hbyte d)
  | rd r => exact execRd_sameButCrc (fun hr => hrd (congrArg _ hr)) c
  | encBuild => exact answersAlike_ite Iff.rfl (fun _ => answersAlike_raise rfl rfl) fun _ => answersAlike_answer rfl rfl
  | encPop | decPop =>
    exact answersAlike_ite Iff.rfl (fun _ => answersAlike_answer rfl rfl) fun _ => answersAlike_raise rfl rfl
  | decParse =>
    exact answersAlike_ite Iff.rfl (fun _ => answersAlike_raise rfl rfl) fun _ =>
      answersAlike_ite Iff.rfl (fun _ => answersAlike_raise rfl rfl) fun _ =>
      answersAlike_ite Iff.rfl (fun _ => answersAlike_raise rfl rfl) fun _ =>
      answersAlike_ite Iff.rfl (fun _ => answersAlike_raise rfl rfl) fun _ => answersAlike_answer rfl rfl
  | nop | sreset | clrerr | crcInit | crcVerify | encStart | encUnit | encFc | encPush | encRewind | decStart | decPush
    | decRewind => exact answersAlike_answer rfl rfl

theorem execWord_crc_kept (h : execWord w s = .next t) (hinit : decode w ≠ .command .crcInit)
    (hsreset : decode w ≠ .command .sreset) (hbyte : ∀ d, decode w ≠ .command (.crcByte d)) : t.crc = s.crc := by
  cases hd : decode w with
  | illegal why =>
    rw [execWord_of_illegal hd] at h
    cases h
    rfl
  | command i =>
    rw [execWord_of_command hd] at h
    obtain ⟨e, data, u, rfl, heff⟩ := effect_of_exec h
    exact heff.crc_kept (fun hi => hsreset (hi ▸ hd)) (fun hi => hinit (hi ▸ hd)) fun d hi => hbyte d (hi ▸ hd)

theorem execWord_sameButCrc (hbyte : ∀ d, decode w ≠ .command (.crcByte d)) (hrd : decode w ≠ .command (.rd 0x01))
    (c : Word) : AnswersAlike SameButCrc (execWord w s) (execWord w { s with crc := c }) := by
  cases hd : decode w with
  | illegal why =>
    rw [execWord_of_illegal hd, execWord_of_illegal hd]
    exact answersAlike_raise rfl rfl
  | command i =>
    rw [execWord_of_command hd, execWord_of_command hd]
    exact exec_sameButCrc (fun d hi => hbyte d (hi ▸ hd)) (fun hi => hrd (hi ▸ hd)) c

theorem SameButCrc.respond (e : ErrCode) (data : Word) (h : SameButCrc s s') :
    SameButCrc (respond e data s) (respond e data s') := by
  unfold SameButCrc at h
  rw [← h]
  rfl

/-- Settles O51: the table of writes for the first half; for the second, two states that differ in `CRC` side by side. -/
theorem onlyTheStreamingCommandsTouchCrc : Obligations.OnlyTheStreamingCommandsTouchCrc := by
  refine ⟨fun w s t => execWord_crc_kept, fun w s t c h hbyte hrd => ?unread⟩
  case unread =>
    have halike := execWord_sameButCrc (s := s) hbyte hrd c
    rw [h] at halike
    obtain ⟨t', hnext, hsame, _⟩ := halike.next fun e data _ _ => SameButCrc.respond e data
    exact ⟨t', hnext, hsame⟩

end Sys2Proof.Machine
end

section
/-! PROOFS. Runs of commands, and the received sequence after a run of pushes (rules R103, R163); the round trip of the checksum through
the block (rule R129). -/

namespace Sys2Proof.Machine

variable {s t u : State} {i : Instr} {b : Config.Buffer} {log bs : List Byte}

/-! ### Runs -/

/-- A run of one command more: its response comes first. -/
theorem runInstrs_cons {r : Response} (is : List Instr) (hexec : exec i s = .next t) (hrsp : t.rsp = some r) :
    runInstrs (i :: is) s = (runInstrs is t).map fun p => (p.1, r :: p.2) := by
  rw [runInstrs, hexec]
  simp only [hrsp]
  cases runInstrs is t <;> rfl

theorem runInstrs_singleton {r : Response} (hexec : exec i s = .next t) (hrsp : t.rsp = some r) :
    runInstrs [i] s = some (t, [r]) := runInstrs_cons [] hexec hrsp

/-- One run after another, by induction on the first. -/
theorem runInstrs_append {is js : List Instr} {rs rs' : List Response} (h : runInstrs is s = some (t, rs))
    (h' : runInstrs js t = some (u, rs')) : runInstrs (is ++ js) s = some (u, rs ++ rs') := by
  induction is generalizing s rs with
  | nil =>
    cases h
    exact h'
  | cons i is ih =>
    obtain ⟨v, r, hexec, hrsp, _⟩ := (exec_endsInResponse i s).next
    rw [runInstrs_cons is hexec hrsp] at h
    obtain ⟨p, hrun, hp⟩ := Option.map_eq_some_iff.mp h
    cases hp
    rw [List.cons_append, runInstrs_cons _ hexec hrsp, ih hrun]
    rfl

/-! ### Pushes -/

/-- A history that fits the buffer is what the buffer holds. -/
theorem PushedSinceZero.readRange_eq (h : PushedSinceZero b log s) (hfits : log.length ≤ bufferSize b s) :
    bufferCounter b s = log.length ∧ readRange b s 0 (bufferCounter b s) = log := by
  have hcounter : bufferCounter b s = log.length := by
    rw [h.counter]
    omega
  have hmeaningful : meaningful b s = log.length := by
    rw [meaningful, hcounter]
    exact min_eq_left hfits
  have hread := h.readRange_eq_take
  rw [hmeaningful, List.take_length] at hread
  rw [hcounter]
  exact ⟨rfl, hread⟩

theorem PushedSinceZero.exec_decPush (h : PushedSinceZero .rxbuf log s) (d : Byte) :
    ∃ t r, exec (.decPush d) s = .next t ∧ t.rsp = some r ∧ PushedSinceZero .rxbuf (log ++ [d]) t ∧ t.params = s.params :=
  ⟨_, _, rfl, rfl, h.push d rfl rfl rfl, rfl⟩

/-- A run of `DEC.PUSH` adds its bytes to the history, by induction on the bytes. -/
theorem PushedSinceZero.run_decPush (h : PushedSinceZero .rxbuf log s) (bs : List Byte) :
    ∃ t rs, runInstrs (bs.map .decPush) s = some (t, rs) ∧ PushedSinceZero .rxbuf (log ++ bs) t ∧ t.params = s.params := by
  induction bs generalizing s log with
  | nil => exact ⟨s, [], rfl, by simpa using h, rfl⟩
  | cons d bs ih =>
    obtain ⟨t, r, hexec, hrsp, hpushed, hparams⟩ := h.exec_decPush d
    obtain ⟨u, rs, hrun, hall, hparams'⟩ := ih hpushed
    exact ⟨u, r :: rs, by rw [List.map_cons, runInstrs_cons _ hexec hrsp, hrun]; rfl, by simpa using hall,
      hparams'.trans hparams⟩

/-- After `DEC.START` and the bytes of a sequence that fits, the received sequence is that sequence (R160, R162, R163). -/
theorem run_decStart_decPush (bs : List Byte) (s : State) (hfits : bs.length ≤ frameMax s) :
    ∃ t rs, runInstrs (.decStart :: bs.map .decPush) s = some (t, rs) ∧ t.params = s.params ∧
      t.rxlen.toNat = bs.length ∧ received t = bs := by
  have hstart : PushedSinceZero .rxbuf [] (answer 0 (rxInvalidate { s with rxlen := 0 })) := pushedSinceZero_nil rfl
  obtain ⟨t, rs, hrun, hpushed, hparams⟩ := hstart.run_decPush bs
  obtain ⟨hlen, hread⟩ := hpushed.readRange_eq (by
    rw [bufferSize_congr .rxbuf hparams]
    exact hfits)
  exact ⟨t, _, by rw [runInstrs_cons _ rfl rfl, hrun]; rfl, hparams, hlen, hread⟩

/-- Settles O24: the block receives the sequence as it was pushed, and it verifies. -/
theorem checksumRoundTrips : Obligations.ChecksumRoundTrips := by
  refine ⟨verify_withCrc, fun bs s hlen => ?block⟩
  case block =>
    have hfits : (withCrc bs).length ≤ frameMax s := by
      have := frameMax_eq s
      rw [withCrc_length]
      omega
    obtain ⟨t, rs, hrun, hparams, hrxlen, hreceived⟩ := run_decStart_decPush (withCrc bs) s hfits
    have hmax : frameMax t = frameMax s := congrArg (· + 4) (maxPayload_congr t s hparams)
    have hverified : exec .crcVerify t = .next (answer 1 t) :=
      exec_crcVerify_of_verified (by omega) (by rw [hreceived]; exact verify_withCrc bs)
    exact ⟨_, _, runInstrs_append hrun (runInstrs_singleton hverified rfl), List.getLast?_concat⟩

end Sys2Proof.Machine
end

section
/-! PROOFS. The commands of the encode side one by one (rules R143 to R150): the word of each, its answer and the state it leaves. -/

namespace Sys2Proof

/-- A first byte with an operand put into `IMM` (R90, R91) decodes to the command it is the word of. -/
theorem decode_or_operand {i : Instr} {g f : BitVec 4} {d : Byte} (hword : encode i = wordOf g f d) (hwf : i.wf = true) :
    decode (wordOf g f 0 ||| d.setWidth 16) = .command i := by
  rw [← wordOf_eq_or, ← hword]
  exact decode_encode i hwf

end Sys2Proof

namespace Sys2Proof.Machine

variable {s : State}

/-! ### Counters as numbers -/

theorem zextCount_eq_ofNat (n : Count) : zextCount n = BitVec.ofNat 16 n.toNat := (BitVec.ofNat_toNat 16 n).symm

theorem Count.add_ofNat (n : Count) (k : Nat) : n + BitVec.ofNat 9 k = BitVec.ofNat 9 (n.toNat + k) := by
  rw [BitVec.ofNat_add, BitVec.ofNat_toNat, BitVec.setWidth_eq]

/-! ### The commands that write one register -/

/-- Settles O27: of the effects on `TXPLEN`, only setting it to 0 lowers it. -/
theorem encStartBeginsANewPayload : Obligations.EncStartBeginsANewPayload := by
  refine ⟨decode_encode .encStart rfl, fun s => congrArg Host.Outcome.next (answer_eq _ _), fun i s t hexec hless => ?lowers⟩
  case lowers =>
    obtain ⟨e, data, u, rfl, heff⟩ := effect_of_exec hexec
    rw [respond_txplen] at hless
    rcases heff.txplen_cases with hkept | ⟨hpushed, _⟩ | ⟨_, hcommand⟩
    · omega
    · omega
    · exact hcommand.symm

/-- Settles O28: each word is the encoder's, and every byte is a well-formed operand. -/
theorem encUnitAndEncFcSetTheirRegister : Obligations.EncUnitAndEncFcSetTheirRegister :=
  ⟨fun d => decode_or_operand (i := .encUnit d) (g := 2) (f := 1) rfl rfl,
    fun d => decode_or_operand (i := .encFc d) (g := 2) (f := 2) rfl rfl,
    fun _ _ => congrArg Host.Outcome.next (answer_eq _ _), fun _ _ => congrArg Host.Outcome.next (answer_eq _ _)⟩

/-- Settles O32: no check stands before the write of `TXRD`. -/
theorem encRewindReturnsToTheFirstByte : Obligations.EncRewindReturnsToTheFirstByte :=
  ⟨decode_encode .encRewind rfl, fun s => congrArg Host.Outcome.next (answer_eq 0 { s with txrd := 0 })⟩

/-! ### `ENC.PUSH` -/

/-- The state after `ENC.PUSH d`, whether the byte is stored or dropped (R147). -/
def pushByte (d : Byte) (s : State) : State :=
  answer (zextCount (pushedTxplen s)) (txInvalidate { s with txpay := pushedTxpay d s, txplen := pushedTxplen s })

theorem exec_encPush (d : Byte) (s : State) : exec (.encPush d) s = .next (pushByte d s) := rfl

/-- The byte stands at the old `TXPLEN`, and no other byte of `TXPAY` has changed (R62, R69). -/
theorem memRead_pushByte (hroom : s.txplen.toNat < maxPayload s) (j : Nat) :
    memRead .txpay (pushByte d s) j = if j = s.txplen.toNat then d else memRead .txpay s j := by
  have hlookup : Memory.lookup (bufferOf .txpay (pushByte d s)) j = _ := lookup_pushedTxpay s d j
  rw [memRead, hlookup]
  by_cases hj : j = s.txplen.toNat
  · simp [hroom, hj]
  · simp [hj, memRead]

/-- Settles O29, one clause for each range of the old `TXPLEN`. -/
theorem encPushAppendsOrSaturates : Obligations.EncPushAppendsOrSaturates := by
  refine ⟨fun d => decode_or_operand (i := .encPush d) (g := 2) (f := 3) rfl rfl, fun d s hroom => ?room,
    fun d s hfull => ?full, fun d s hover => ?above⟩
  case room =>
    have hcount : (pushedTxplen s).toNat = s.txplen.toNat + 1 := by rw [pushedTxplen_toNat, if_pos hroom.le]
    have hplen : pushedTxplen s = s.txplen + 1 := if_pos hroom.le
    refine ⟨pushByte d s, exec_encPush d s, ?_, hcount, ?_, fun j hj => ?_⟩
    · rw [← hcount, ← zextCount_eq_ofNat, ← hplen]
      rfl
    · rw [memRead_pushByte hroom, if_pos rfl]
    · rw [memRead_pushByte hroom, if_neg hj]
  case full =>
    have hplen : pushedTxplen s = BitVec.ofNat 9 (maxPayload s + 1) := by
      rw [← hfull, ← Count.add_ofNat]
      exact if_pos hfull.le
    have hcount : (pushedTxplen s).toNat = maxPayload s + 1 := by rw [pushedTxplen_toNat, if_pos hfull.le, hfull]
    have hpay : pushedTxpay d s = s.txpay := if_neg hfull.not_lt
    rw [exec_encPush, pushByte, hpay, zextCount_eq_ofNat, hcount, hplen]
    rfl
  case above =>
    have hplen : pushedTxplen s = s.txplen := if_neg hover.not_ge
    have hpay : pushedTxpay d s = s.txpay := if_neg hover.not_gt
    rw [exec_encPush, pushByte, hpay, zextCount_eq_ofNat, hplen]
    rfl

/-! ### `ENC.BUILD` -/

/-- R24: four more than a payload that fits is still a counter value. -/
theorem txlen_buildFrame (hfits : s.txplen.toNat ≤ maxPayload s) : (s.txplen + 4).toNat = s.txplen.toNat + 4 :=
  ((txFrameInv_buildFrame hfits).built rfl).txlen

/-- Settles O30: the two outcomes of the length check, and the build that repeats. -/
theorem encBuildMakesTheFrameOfTheStaging : Obligations.EncBuildMakesTheFrameOfTheStaging := by
  refine ⟨decode_encode .encBuild rfl, fun s hlong => ?tooLong, fun s hfits => ?fits, fun s t => encBuild_repeats⟩
  case tooLong =>
    rw [exec_encBuild_of_tooLong hlong]
    rfl
  case fits =>
    have hlen : s.txplen + 4 = BitVec.ofNat 9 (s.txplen.toNat + 4) := Count.add_ofNat s.txplen 4
    rw [exec_encBuild_of_fits hfits, zextCount_eq_ofNat, txlen_buildFrame hfits, ← hlen]
    rfl

/-! ### `ENC.POP` -/

theorem exec_encPop_of_byte (hvalid : s.txvalid = true) (hrd : s.txrd.toNat < s.txlen.toNat) :
    exec .encPop s = .next (answer (zextByte (txframe s s.txrd.toNat)) { s with txrd := s.txrd + 1 }) :=
  if_pos ⟨hvalid, hrd⟩

theorem exec_encPop_of_empty (h : s.txvalid = false ∨ s.txlen.toNat ≤ s.txrd.toNat) :
    exec .encPop s = .next (raise .empty 0 s) := by
  refine if_neg fun ⟨hvalid, hrd⟩ => ?_
  rcases h with hnone | hend
  · exact Bool.eq_false_iff.mp hnone hvalid
  · exact absurd hrd (Nat.not_lt.mpr hend)

/-- Settles O31: the byte at `TXRD`, which below `TXLEN` does not wrap, or `EMPTY`. -/
theorem encPopAnswersTheNextFrameByte : Obligations.EncPopAnswersTheNextFrameByte :=
  ⟨decode_encode .encPop rfl,
    fun _ hvalid hrd => ⟨_, exec_encPop_of_byte hvalid hrd, rfl, Count.toNat_add_one hrd⟩,
    fun _ => exec_encPop_of_empty⟩

end Sys2Proof.Machine
end

section
/-! PROOFS. The built frame byte by byte (rules R140, R141, R152), and the round trip of a request through the block (rules R103, R151). -/

namespace Sys2Proof.Machine

variable {s : State} {u f : Byte} {log P : List Byte}

/-! ### The bytes of the built frame -/

theorem txframe_payload {i : Nat} (hi : i < s.txplen.toNat) : txframe s (i + 2) = memRead .txpay s i := by
  simp [txframe, hi]

theorem txframe_crcLow (s : State) : txframe s (s.txplen.toNat + 2) = lowByte s.txcrc := by simp [txframe]

theorem txframe_crcHigh (s : State) : txframe s (s.txplen.toNat + 3) = highByte s.txcrc := by simp [txframe]

/-- The bytes of R141 in order, in every state: the two fields, the staged payload, the two bytes of `TXCRC`. -/
theorem map_txframe_range (s : State) : (List.range (s.txplen.toNat + 4)).map (txframe s) =
    s.txunit :: s.txfc :: stagedPayload s ++ wireBytes s.txcrc := by
  have hpayload : (List.range s.txplen.toNat).map (fun i => txframe s (i + 2)) = stagedPayload s := by
    rw [stagedPayload, readRange, ← List.range_eq_range']
    exact List.map_congr_left fun i hi => txframe_payload (List.mem_range.mp hi)
  have hhead : (List.range (s.txplen.toNat + 2)).map (txframe s) = s.txunit :: s.txfc :: stagedPayload s := by
    rw [← hpayload]
    simp [List.range_succ_eq_map, Function.comp_def, txframe]
  rw [List.range_succ, List.range_succ, List.map_append, List.map_append, hhead, List.append_assoc]
  simp [txframe_crcLow, txframe_crcHigh, wireBytes]

/-- R152: with R39 item 2 the built frame is the frame of the staged arguments. -/
theorem BuiltFrame.map_txframe (h : BuiltFrame s) :
    (List.range s.txlen.toNat).map (txframe s) = frame s.txunit s.txfc (stagedPayload s) := by
  rw [h.txlen, map_txframe_range, h.txcrc]
  rfl

/-- Settles O33: the layout is the definition's, and a frame is a sequence with its checksum. -/
theorem builtFrameIsTheFrameOfTheStaging : Obligations.BuiltFrameIsTheFrameOfTheStaging := by
  refine ⟨fun u f P => rfl, fun s _ => ⟨rfl, rfl, fun i hlow hhigh => ?payload, txframe_crcLow s, txframe_crcHigh s⟩,
    fun s hinv hvalid => (hinv.built hvalid).map_txframe, fun u f P => ⟨verify_withCrc _, crc16_withCrc _⟩⟩
  case payload =>
    obtain ⟨k, rfl⟩ := Nat.exists_eq_add_of_le' hlow
    exact txframe_payload (by omega)

/-! ### Staging a request -/

/-- The staged arguments: unit id, function code, and the bytes pushed since `ENC.START` (R25, R143 to R147). -/
structure Staged (u f : Byte) (log : List Byte) (s : State) : Prop where
  txunit : s.txunit = u
  txfc : s.txfc = f
  pushed : PushedSinceZero .txpay log s

theorem Staged.pushByte (h : Staged u f log s) (d : Byte) : Staged u f (log ++ [d]) (pushByte d s) :=
  ⟨h.txunit, h.txfc, h.pushed.push d rfl rfl rfl⟩

/-- A run of `ENC.PUSH` adds its bytes to the staged ones, by induction on the bytes. -/
theorem Staged.run_encPush (h : Staged u f log s) (P : List Byte) :
    ∃ t rs, runInstrs (P.map .encPush) s = some (t, rs) ∧ Staged u f (log ++ P) t ∧ t.params = s.params := by
  induction P generalizing s log with
  | nil => exact ⟨s, [], rfl, by simpa using h, rfl⟩
  | cons d P ih =>
    obtain ⟨t, rs, hrun, hstaged, hparams⟩ := ih (h.pushByte d)
    exact ⟨t, _, by rw [List.map_cons, runInstrs_cons _ (exec_encPush d s) rfl, hrun]; rfl, by simpa using hstaged, hparams⟩

/-- `ENC.START` forgets the earlier bytes, whatever the state was (R143). -/
theorem run_encStart_encUnit_encFc (u f : Byte) (s : State) :
    ∃ t rs, runInstrs [.encStart, .encUnit u, .encFc f] s = some (t, rs) ∧ Staged u f [] t ∧ t.params = s.params :=
  ⟨_, _, rfl, ⟨rfl, rfl, pushedSinceZero_nil rfl⟩, rfl⟩

/-- From any state `ENC.REQUEST` stages its arguments before it builds (R103). -/
theorem run_encStage (u f : Byte) (P : List Byte) (s : State) :
    ∃ t rs, runInstrs (.encStart :: .encUnit u :: .encFc f :: P.map .encPush) s = some (t, rs) ∧ Staged u f P t ∧
      maxPayload t = maxPayload s := by
  obtain ⟨t, rs, hrun, hstart, hparams⟩ := run_encStart_encUnit_encFc u f s
  obtain ⟨t', rs', hrun', hstaged, hparams'⟩ := hstart.run_encPush P
  exact ⟨t', rs ++ rs', runInstrs_append hrun hrun', hstaged, maxPayload_congr t' s (hparams'.trans hparams)⟩

/-- R147: the staged payload is what was pushed, if it fits. -/
theorem Staged.payload_of_fits (h : Staged u f P s) (hfits : P.length ≤ maxPayload s) :
    s.txplen.toNat = P.length ∧ stagedPayload s = P := h.pushed.readRange_eq hfits

/-- R24: a payload that does not fit leaves the count above `MAX_PAYLOAD`. -/
theorem Staged.tooLong (h : Staged u f P s) (hlong : maxPayload s < P.length) : maxPayload s < s.txplen.toNat := by
  have hcounter : s.txplen.toNat = min P.length (maxPayload s + 1) := h.pushed.counter
  omega

/-- R148: `ENC.BUILD` makes the frame of what is staged, and answers its length. -/
theorem Staged.exec_encBuild (h : Staged u f P s) (hfits : P.length ≤ maxPayload s) :
    ∃ t, exec .encBuild s = .next t ∧ t.rsp = some { err := 0, data := BitVec.ofNat 16 (P.length + 4) } ∧
      t.txvalid = true ∧ t.txlen.toNat = P.length + 4 ∧ BuiltFrame t ∧
      t.txunit = u ∧ t.txfc = f ∧ stagedPayload t = P := by
  obtain ⟨hplen, hpayload⟩ := h.payload_of_fits hfits
  have hle : s.txplen.toNat ≤ maxPayload s := hplen.trans_le hfits
  have hlen : (s.txplen + 4).toNat = P.length + 4 := by rw [txlen_buildFrame hle, hplen]
  refine ⟨_, exec_encBuild_of_fits hle, ?_, rfl, hlen, ?_, h.txunit, h.txfc, hpayload⟩
  · rw [zextCount_eq_ofNat, hlen]
    rfl
  · exact ((txFrameInv_buildFrame hle).congr (t := answer _ (buildFrame s)) rfl rfl).built rfl

/-! ### Reading the frame back -/

/-- The answer of the `ENC.POP` that reads byte `i` of the built frame of `s` (R149). -/
def byteAnswer (s : State) (i : Nat) : Response := { err := 0, data := zextByte (txframe s i) }

/-- `n` pops inside the built frame answer the `n` bytes from `TXRD` on, by induction on `n`: a pop leaves the frame as it is. -/
theorem run_encPop (n : Nat) (hvalid : s.txvalid = true) (hrd : s.txrd.toNat + n ≤ s.txlen.toNat) :
    ∃ t, runInstrs (List.replicate n .encPop) s = some (t, (List.range' s.txrd.toNat n).map (byteAnswer s)) := by
  induction n generalizing s with
  | zero => exact ⟨s, rfl⟩
  | succ n ih =>
    have hlt : s.txrd.toNat < s.txlen.toNat := by omega
    have hnext : (s.txrd + 1).toNat = s.txrd.toNat + 1 := Count.toNat_add_one hlt
    obtain ⟨t, hrun⟩ := ih (s := answer (zextByte (txframe s s.txrd.toNat)) { s with txrd := s.txrd + 1 }) hvalid
      (by change (s.txrd + 1).toNat + n ≤ s.txlen.toNat; omega)
    refine ⟨t, ?_⟩
    rw [List.replicate_succ, runInstrs_cons _ (exec_encPop_of_byte hvalid hlt) rfl, hrun, List.range'_succ, ← hnext]
    rfl

/-- `ENC.DRAIN` begins at the first byte, wherever `TXRD` stands (R103, R150). -/
theorem run_encDrain (h : BuiltFrame s) (hvalid : s.txvalid = true) :
    ∃ t, runInstrs (expand (.encDrain s.txlen.toNat)) s = some (t, { err := 0, data := 0 } ::
      (frame s.txunit s.txfc (stagedPayload s)).map fun b => { err := 0, data := b.setWidth 16 }) := by
  obtain ⟨t, hrun⟩ := run_encPop (s := answer 0 { s with txrd := 0 }) s.txlen.toNat hvalid (Nat.zero_add _).le
  refine ⟨t, ?_⟩
  rw [expand, runInstrs_cons (t := answer 0 { s with txrd := 0 }) _ rfl rfl, hrun, ← h.map_txframe, List.map_map,
    List.range_eq_range']
  rfl

/-- Settles O34: the request is staged whatever the state was, and its length decides whether `ENC.BUILD` makes its frame. -/
theorem encodeRequestReadsBackAsTheFrame : Obligations.EncodeRequestReadsBackAsTheFrame := by
  intro u f P s
  obtain ⟨t, rs, hrun, hstaged, hmax⟩ := run_encStage u f P s
  rw [← hmax]
  refine ⟨fun hfits => ?fits, fun hlong => ?tooLong⟩
  case fits =>
    obtain ⟨v, hbuild, hrsp, hvalid, hlen, hbuilt, rfl, rfl, rfl⟩ := hstaged.exec_encBuild hfits
    obtain ⟨t', hdrain⟩ := run_encDrain hbuilt hvalid
    rw [hlen] at hdrain
    exact ⟨v, _, t', _, runInstrs_append hrun (runInstrs_singleton hbuild hrsp), List.getLast?_concat, hdrain, rfl⟩
  case tooLong =>
    have hbuild := exec_encBuild_of_tooLong (hstaged.tooLong hlong)
    exact ⟨_, _, runInstrs_append hrun (runInstrs_singleton hbuild rfl), List.getLast?_concat, rfl,
      exec_encPop_of_empty (.inl rfl)⟩

end Sys2Proof.Machine
end

section
/-! PROOFS. The reply-shape check (rule R166): the default table row by row, and the payload of an exception response. -/

namespace Sys2Proof.Machine

variable {f : Byte} {P : List Byte}

/-! ### The rows of the default table -/

theorem defaultShape_exception (hbit : exceptionBit f = true) : defaultShape f P = true ↔ P.length = 1 := by
  simp [defaultShape, hbit]

/-- A read reply begins with the count of the bytes that follow it. -/
theorem defaultShape_read : defaultShape 0x03 P = true ↔ ∃ c, P.head? = some c ∧ P.length = 1 + c.toNat := by
  cases P with
  | nil => simp [defaultShape, exceptionBit]
  | cons c P => simp [defaultShape, exceptionBit]

theorem defaultShape_write (hwrite : f = 0x06 ∨ f = 0x10) : defaultShape f P = true ↔ P.length = 4 := by
  rcases hwrite with rfl | rfl <;> simp [defaultShape, exceptionBit]

theorem defaultShape_other (hbit : exceptionBit f = false) (hread : f ≠ 0x03) (hwrite : ¬ (f = 0x06 ∨ f = 0x10)) :
    defaultShape f P = true := by
  rw [defaultShape.eq_def, hbit, if_neg Bool.false_ne_true, if_neg hread, if_neg hwrite]

/-- None of the function codes the table names has bit 7 set. -/
theorem not_named_of_exception (hbit : f.getLsbD 7 = true) : f ≠ 0x03 ∧ f ≠ 0x06 ∧ f ≠ 0x10 := by
  refine ⟨?_, ?_, ?_⟩ <;>
  · rintro rfl
    exact absurd hbit (by decide)

/-- By the row that `f` selects. -/
theorem defaultShape_iff (f : Byte) (P : List Byte) : defaultShape f P = true ↔
    (f.getLsbD 7 = true ∧ P.length = 1) ∨
    (f = 0x03 ∧ ∃ c, P.head? = some c ∧ P.length = 1 + c.toNat) ∨
    (f = 0x06 ∧ P.length = 4) ∨ (f = 0x10 ∧ P.length = 4) ∨
    (f.getLsbD 7 = false ∧ f ≠ 0x03 ∧ f ≠ 0x06 ∧ f ≠ 0x10) := by
  cases hbit : f.getLsbD 7 with
  | true =>
    obtain ⟨h3, h6, h16⟩ := not_named_of_exception hbit
    rw [defaultShape_exception hbit]
    simp only [h3, h6, h16, true_and, false_and, or_false, Bool.true_eq_false]
  | false =>
    by_cases hread : f = 0x03
    · subst hread
      rw [defaultShape_read]
      simp
    by_cases hwrite : f = 0x06 ∨ f = 0x10
    · rw [defaultShape_write hwrite]
      rcases hwrite with rfl | rfl <;> simp
    · have hother := defaultShape_other (P := P) hbit hread hwrite
      exact iff_of_true hother (.inr (.inr (.inr (.inr ⟨rfl, hread, not_or.mp hwrite⟩))))

/-! ### Every `SHAPE` in force -/

/-- So that `P[0]` exists where R164 reads it. -/
theorem shape_exception_nil (p : Config.ShapeParam) (hbit : exceptionBit f = true) : shape p f [] = false := by
  cases p with
  | default => simp [shape, defaultShape, hbit]
  | replacement id => simp [shape, hbit]

/-- Settles O40: the table row by row, and the legality of R166 for either kind of parameter. -/
theorem defaultShapeIsTheTableOfReplyLayouts : Obligations.DefaultShapeIsTheTableOfReplyLayouts :=
  ⟨defaultShape_iff, fun p _ => shape_exception_nil p⟩

end Sys2Proof.Machine
end

section
/-! PROOFS. The commands of the decode side one by one (rules R162 to R170): the word of each, its answer and the state it leaves. -/

namespace Sys2Proof.Machine

variable {s t : State}

/-! ### The commands that set one counter to 0 -/

/-- Settles O35: of the effects on `RXLEN`, only setting it to 0 lowers it. -/
theorem decStartBeginsANewSequence : Obligations.DecStartBeginsANewSequence := by
  refine ⟨decode_encode .decStart rfl, fun s => congrArg Host.Outcome.next (answer_eq _ _), fun i s t hexec hless => ?lowers⟩
  case lowers =>
    obtain ⟨e, data, u, rfl, heff⟩ := effect_of_exec hexec
    rw [respond_rxlen] at hless
    rcases heff.rxlen_cases with hkept | ⟨hpushed, _⟩ | ⟨_, hcommand⟩
    · omega
    · omega
    · exact hcommand.symm

/-- Settles O39: no check stands before the write of `RXRD`. -/
theorem decRewindReturnsToTheFirstByte : Obligations.DecRewindReturnsToTheFirstByte :=
  ⟨decode_encode .decRewind rfl, fun s => congrArg Host.Outcome.next (answer_eq 0 { s with rxrd := 0 })⟩

/-! ### `DEC.PUSH` -/

/-- The state after `DEC.PUSH d`, whether the byte is stored or dropped (R163). -/
def receiveByte (d : Byte) (s : State) : State :=
  answer (zextCount (pushedRxlen s)) (rxInvalidate { s with rxbuf := pushedRxbuf d s, rxlen := pushedRxlen s })

theorem exec_decPush (d : Byte) (s : State) : exec (.decPush d) s = .next (receiveByte d s) := rfl

/-- A byte pushed where there is room stands at the old counter, and no other byte of the buffer has changed (R62, R69). -/
theorem memRead_of_pushedBuffer {b : Config.Buffer} {d : Byte} (hbytes : bufferOf b t = pushedBuffer b d s)
    (hroom : bufferCounter b s < bufferSize b s) (j : Nat) :
    memRead b t j = if j = bufferCounter b s then d else memRead b s j := by
  rw [memRead, hbytes, lookup_pushedBuffer]
  by_cases hj : j = bufferCounter b s
  · simp [hroom, hj]
  · simp [hj, memRead]

theorem memRead_receiveByte (d : Byte) (hroom : s.rxlen.toNat < frameMax s) (j : Nat) :
    memRead .rxbuf (receiveByte d s) j = if j = s.rxlen.toNat then d else memRead .rxbuf s j :=
  memRead_of_pushedBuffer (b := .rxbuf) rfl hroom j

/-- Settles O36, one clause for each range of the old `RXLEN`. -/
theorem decPushAppendsOrSaturates : Obligations.DecPushAppendsOrSaturates := by
  refine ⟨fun d => decode_or_operand (i := .decPush d) (g := 3) (f := 1) rfl rfl, fun d s hroom => ?room,
    fun d s hfull => ?full, fun d s hover => ?above⟩
  case room =>
    have hcount : (pushedRxlen s).toNat = s.rxlen.toNat + 1 := by rw [pushedRxlen_toNat, if_pos hroom.le]
    have hlen : pushedRxlen s = s.rxlen + 1 := if_pos hroom.le
    refine ⟨receiveByte d s, exec_decPush d s, ?_, hcount, ?_, fun j hj => ?_⟩
    · rw [← hcount, ← zextCount_eq_ofNat, ← hlen]
      rfl
    · rw [memRead_receiveByte d hroom, if_pos rfl]
    · rw [memRead_receiveByte d hroom, if_neg hj]
  case full =>
    have hlen : pushedRxlen s = BitVec.ofNat 9 (frameMax s + 1) := by
      rw [← hfull, ← Count.add_ofNat]
      exact if_pos hfull.le
    have hcount : (pushedRxlen s).toNat = frameMax s + 1 := by rw [pushedRxlen_toNat, if_pos hfull.le, hfull]
    have hbuf : pushedRxbuf d s = s.rxbuf := if_neg hfull.not_lt
    rw [exec_decPush, receiveByte, hbuf, zextCount_eq_ofNat, hcount, hlen]
    rfl
  case above =>
    have hlen : pushedRxlen s = s.rxlen := if_neg hover.not_ge
    have hbuf : pushedRxbuf d s = s.rxbuf := if_neg hover.not_gt
    rw [exec_decPush, receiveByte, hbuf, zextCount_eq_ofNat, hlen]
    rfl

/-! ### The received sequence in its parts -/

/-- The parts of R160 in order, in every state with at least four bytes received. -/
theorem received_eq_parts (h4 : 4 ≤ s.rxlen.toNat) : received s =
    memRead .rxbuf s 0 :: memRead .rxbuf s 1 :: (receivedPayload s ++ readRange .rxbuf s (s.rxlen.toNat - 2) 2) := by
  have hlen : s.rxlen.toNat = 2 + (s.rxlen.toNat - 4) + 2 := by omega
  have htrailer : 0 + (2 + (s.rxlen.toNat - 4)) = s.rxlen.toNat - 2 := by omega
  calc received s = readRange .rxbuf s 0 (2 + (s.rxlen.toNat - 4) + 2) := by rw [← hlen, received]
    _ = readRange .rxbuf s 0 2 ++ receivedPayload s ++ readRange .rxbuf s (s.rxlen.toNat - 2) 2 := by
      rw [readRange_add, readRange_add, htrailer, receivedPayload]

@[simp] theorem receivedPayload_length (s : State) : (receivedPayload s).length = s.rxlen.toNat - 4 :=
  readRange_length .rxbuf s 2 _

/-- The payload as a part of the received sequence (R160); with fewer than four bytes received both are empty. -/
theorem received_drop_take (s : State) : ((received s).drop 2).take (s.rxlen.toNat - 4) = receivedPayload s := by
  rcases Nat.lt_or_ge s.rxlen.toNat 4 with hlen | h4
  · have hzero : s.rxlen.toNat - 4 = 0 := by omega
    simp [receivedPayload, readRange, hzero]
  · rw [received_eq_parts h4]
    exact List.take_left' (receivedPayload_length s)

/-! ### `DEC.PARSE` -/

theorem Accepted.rxplen_eq_ofNat (h : Accepted s) : s.rxlen - 4 = BitVec.ofNat 9 (s.rxlen.toNat - 4) := by
  rw [← h.rxplen, BitVec.ofNat_toNat, BitVec.setWidth_eq]

theorem Accepted.answered_length (h : Accepted s) : zextCount (s.rxlen - 4) = BitVec.ofNat 16 (s.rxlen.toNat - 4) := by
  rw [zextCount_eq_ofNat, h.rxplen]

/-- R166: no `SHAPE` accepts an exception response without a payload, so the exception code is there to be read. -/
theorem Accepted.exception_head (h : Accepted s) (hbit : exceptionBit (memRead .rxbuf s 1) = true) :
    (receivedPayload s).head? = some (memRead .rxbuf s 2) := by
  have hpayload : receivedPayload s ≠ [] := by
    intro hnil
    have hshaped := h.shaped
    rw [hnil, shape_exception_nil _ hbit] at hshaped
    exact Bool.false_ne_true hshaped
  have hlength := List.length_pos_iff.mpr hpayload
  rw [receivedPayload_length] at hlength
  exact receivedPayload_head s (by omega)

/-- The first check of R165 passed. -/
theorem length_passes (h4 : 4 ≤ s.rxlen.toNat) (hmax : s.rxlen.toNat ≤ frameMax s) :
    ¬ (s.rxlen.toNat < 4 ∨ frameMax s < s.rxlen.toNat) :=
  not_or.mpr ⟨Nat.not_lt.mpr h4, Nat.not_lt.mpr hmax⟩

/-- Settles O37: the three refusals in the order of R165, then the two kinds of frame that pass all checks. -/
theorem decParseChecksInOrder : Obligations.DecParseChecksInOrder := by
  refine ⟨decode_encode .decParse rfl, ?outcomes, fun s t => decParse_repeats⟩
  case outcomes =>
  rintro s _ P _ _ rfl hP rfl rfl
  obtain rfl : P = receivedPayload s := hP.trans (received_drop_take s)
  refine ⟨fun hlen => ?length, fun h4 hmax hsum => ?checksum, fun h4 hmax hsum hshape => ?shape,
    fun h4 hmax hsum hshape hbit => ?exception, fun h4 hmax hsum hshape hbit => ?normal⟩
  case length => exact (Refused.length hlen).exec_decParse
  case checksum => exact (Refused.checksum (length_passes h4 hmax) (Bool.eq_false_iff.mp hsum)).exec_decParse
  case shape => exact (Refused.shape (length_passes h4 hmax) hsum (Bool.eq_false_iff.mp hshape)).exec_decParse
  case exception =>
    have hacc : Accepted s := ⟨h4, hmax, hsum, hshape⟩
    refine ⟨memRead .rxbuf s 2, hacc.exception_head hbit, ?_⟩
    rw [hacc.exec_decParse_exception hbit, ← hacc.rxplen_eq_ofNat]
    rfl
  case normal =>
    have hacc : Accepted s := ⟨h4, hmax, hsum, hshape⟩
    rw [hacc.exec_decParse_normal hbit, hacc.answered_length, ← hacc.rxplen_eq_ofNat]
    rfl

/-! ### `DEC.POP` -/

theorem exec_decPop_of_byte (hvalid : s.rxvalid = true ∨ s.rxexc = true) (hrd : s.rxrd.toNat < s.rxplen.toNat) :
    exec .decPop s = .next (answer (zextByte (memRead .rxbuf s (2 + s.rxrd.toNat))) { s with rxrd := s.rxrd + 1 }) :=
  if_pos ⟨hvalid, hrd⟩

theorem exec_decPop_of_empty (h : (s.rxvalid = false ∧ s.rxexc = false) ∨ s.rxplen.toNat ≤ s.rxrd.toNat) :
    exec .decPop s = .next (raise .empty 0 s) := by
  refine if_neg fun ⟨hvalid, hrd⟩ => ?_
  rcases h with ⟨hnormal, hexc⟩ | hend
  · simp [hnormal, hexc] at hvalid
  · exact absurd hrd (Nat.not_lt.mpr hend)

/-- Settles O38: the payload byte at `RXRD`, which below `RXPLEN` does not wrap, or `EMPTY`. -/
theorem decPopAnswersTheNextPayloadByte : Obligations.DecPopAnswersTheNextPayloadByte :=
  ⟨decode_encode .decPop rfl,
    fun _ hvalid hrd => ⟨_, exec_decPop_of_byte hvalid hrd, rfl, Count.toNat_add_one hrd⟩,
    fun _ => exec_decPop_of_empty⟩

end Sys2Proof.Machine
end

section
/-! PROOFS. The response a host pushes, parses and reads back (rules R103, R172 to R174). -/

namespace Sys2Proof.Machine

variable {s t : State} {u f : Byte} {P bs : List Byte}

/-! ### A run of `DEC.RESPONSE` -/

/-- Whatever the state was, `DEC.RESPONSE` ends with `DEC.PARSE` of the sequence that was pushed (R103). -/
theorem run_decResponse (bs : List Byte) (s : State) (hfits : bs.length ≤ frameMax s) :
    ∃ v, v.params = s.params ∧ v.rxlen.toNat = bs.length ∧ received v = bs ∧
      ∀ t r, exec .decParse v = .next t → t.rsp = some r →
        ∃ rs, runInstrs (expand (.decResponse bs)) s = some (t, rs) ∧ rs.getLast? = some r := by
  obtain ⟨v, rs, hrun, hparams, hlen, hreceived⟩ := run_decStart_decPush bs s hfits
  exact ⟨v, hparams, hlen, hreceived, fun t r hexec hrsp =>
    ⟨_, runInstrs_append hrun (runInstrs_singleton hexec hrsp), List.getLast?_concat⟩⟩

theorem frameMax_congr (h : t.params = s.params) : frameMax t = frameMax s :=
  bufferSize_congr .rxbuf h

/-! ### Corrupted frames -/

/-- R173: a sequence of a legal length passes the first check and fails the second. -/
theorem run_decResponse_checksum (s : State) (h4 : 4 ≤ bs.length) (hfits : bs.length ≤ frameMax s)
    (hsum : verify bs = false) : ∃ t rs, runInstrs (expand (.decResponse bs)) s = some (t, rs) ∧
      rs.getLast? = some { err := 2, data := 0 } ∧ t.rxvalid = false ∧ t.rxexc = false := by
  obtain ⟨v, hparams, hlen, rfl, hrun⟩ := run_decResponse bs s hfits
  have hmax : v.rxlen.toNat ≤ frameMax v := by rw [hlen, frameMax_congr hparams]; exact hfits
  have hrefused : Refused v .checksum := .checksum (length_passes (hlen ▸ h4) hmax) (Bool.eq_false_iff.mp hsum)
  obtain ⟨rs, hrun, hlast⟩ := hrun _ _ hrefused.exec_decParse rfl
  exact ⟨_, rs, hrun, hlast, rfl, rfl⟩

@[simp] theorem frame_length (u f : Byte) (P : List Byte) : (frame u f P).length = P.length + 4 := by
  simp [frame]

@[simp] theorem flipBit_length (bs : List Byte) (i : Nat) (k : Fin 8) : (flipBit bs i k).length = bs.length := by
  simp [flipBit]

/-- Settles O42: one inverted bit is detected by the checksum, and leaves the length as it was. -/
theorem corruptedFramesAreAnsweredChecksum : Obligations.CorruptedFramesAreAnsweredChecksum := by
  refine ⟨fun u f P s i k hfits hi => ?flipped, fun B s => run_decResponse_checksum s⟩
  case flipped =>
    have hlen : (flipBit (frame u f P) i k).length = P.length + 4 := by simp
    have hsum : verify (flipBit (frame u f P) i k) = false := oneInvertedBitIsDetected _ i k (by simpa using hi)
    exact run_decResponse_checksum s (by omega) (by rw [hlen, frameMax_eq]; omega) hsum

/-! ### A received frame -/

/-- The received sequence is `frame(u, f, P)`, part by part (R140, R160). -/
structure HoldsFrame (u f : Byte) (P : List Byte) (s : State) : Prop where
  rxlen : s.rxlen.toNat = P.length + 4
  unit : memRead .rxbuf s 0 = u
  function : memRead .rxbuf s 1 = f
  payload : receivedPayload s = P
  verifies : verify (received s) = true

theorem holdsFrame_of_received (hlen : s.rxlen.toNat = P.length + 4) (h : received s = frame u f P) :
    HoldsFrame u f P s := by
  have hparts : _ = u :: f :: (P ++ wireBytes _) := (received_eq_parts (s := s) (by omega)).symm.trans h
  obtain ⟨hunit, hrest⟩ := List.cons.inj hparts
  obtain ⟨hfunction, hrest⟩ := List.cons.inj hrest
  obtain ⟨hpayload, _⟩ := List.append_inj hrest (by rw [receivedPayload_length, hlen, Nat.add_sub_cancel])
  exact ⟨hlen, hunit, hfunction, hpayload, by rw [h]; exact verify_withCrc _⟩

theorem HoldsFrame.accepted (h : HoldsFrame u f P s) (hfits : P.length ≤ maxPayload s)
    (hshape : shape s.params.shape f P = true) : Accepted s where
  four_le := by rw [h.rxlen]; omega
  le_frameMax := by rw [h.rxlen, frameMax_eq]; omega
  verifies := h.verifies
  shaped := by rw [h.function, h.payload]; exact hshape

theorem HoldsFrame.rxplen (h : HoldsFrame u f P s) (hacc : Accepted s) : (s.rxlen - 4).toNat = P.length := by
  rw [hacc.rxplen, h.rxlen, Nat.add_sub_cancel]

theorem HoldsFrame.readRange_payload (h : HoldsFrame u f P s) : readRange .rxbuf s 2 P.length = P := by
  have hpayload := h.payload
  rwa [receivedPayload, h.rxlen, Nat.add_sub_cancel] at hpayload

/-- A frame with the reply shape is parsed as a frame that passes all checks (R165, R172). -/
theorem run_decResponse_frame (s : State) (hfits : P.length ≤ maxPayload s) (hshape : shape s.params.shape f P = true) :
    ∃ v, HoldsFrame u f P v ∧ Accepted v ∧
      ∀ t r, exec .decParse v = .next t → t.rsp = some r →
        ∃ rs, runInstrs (expand (.decResponse (frame u f P))) s = some (t, rs) ∧ rs.getLast? = some r := by
  obtain ⟨v, hparams, hlen, hreceived, hrun⟩ :=
    run_decResponse (frame u f P) s (by rw [frame_length, frameMax_eq]; omega)
  rw [frame_length] at hlen
  have hframe := holdsFrame_of_received hlen hreceived
  exact ⟨v, hframe,
    hframe.accepted (by rwa [maxPayload_congr v s hparams]) (by rwa [hparams]), hrun⟩

/-! ### Reading the payload back -/

/-- The answer of the `DEC.POP` that reads byte `i` of the decoded payload of `s` (R169). -/
def payloadAnswer (s : State) (i : Nat) : Response := { err := 0, data := zextByte (memRead .rxbuf s (2 + i)) }

/-- `n` pops inside the decoded payload answer the `n` bytes from `RXRD` on, by induction on `n`: a pop leaves the bytes as they are. -/
theorem run_decPop (n : Nat) (hvalid : s.rxvalid = true ∨ s.rxexc = true) (hrd : s.rxrd.toNat + n ≤ s.rxplen.toNat) :
    ∃ t, runInstrs (List.replicate n .decPop) s = some (t, (List.range' s.rxrd.toNat n).map (payloadAnswer s)) := by
  induction n generalizing s with
  | zero => exact ⟨s, rfl⟩
  | succ n ih =>
    have hlt : s.rxrd.toNat < s.rxplen.toNat := by omega
    have hnext : (s.rxrd + 1).toNat = s.rxrd.toNat + 1 := Count.toNat_add_one hlt
    obtain ⟨t, hrun⟩ :=
      ih (s := answer (zextByte (memRead .rxbuf s (2 + s.rxrd.toNat))) { s with rxrd := s.rxrd + 1 }) hvalid
        (by change (s.rxrd + 1).toNat + n ≤ s.rxplen.toNat; omega)
    refine ⟨t, ?_⟩
    rw [List.replicate_succ, runInstrs_cons _ (exec_decPop_of_byte hvalid hlt) rfl, hrun, List.range'_succ, ← hnext]
    rfl

/-- The payload's bytes by their index in the payload (R160). -/
theorem readRange_eq_map_range' (b : Config.Buffer) (s : State) (a n : Nat) :
    readRange b s a n = (List.range' 0 n).map fun i => memRead b s (a + i) := by
  rw [readRange, ← Nat.add_zero a, ← List.map_add_range', List.map_map]
  rfl

/-- `DEC.DRAIN` begins at the first byte, wherever `RXRD` stands (R103, R170). -/
theorem run_decDrain (hvalid : s.rxvalid = true ∨ s.rxexc = true) {n : Nat} (hplen : s.rxplen.toNat = n) :
    ∃ t, runInstrs (expand (.decDrain n)) s = some (t, { err := 0, data := 0 } ::
      (readRange .rxbuf s 2 n).map fun b => { err := 0, data := b.setWidth 16 }) := by
  obtain ⟨t, hrun⟩ := run_decPop (s := answer 0 { s with rxrd := 0 }) n hvalid (by simp [hplen])
  refine ⟨t, ?_⟩
  rw [expand, runInstrs_cons (t := answer 0 { s with rxrd := 0 }) _ rfl rfl, hrun, readRange_eq_map_range', List.map_map]
  rfl

/-- Settles O41: the frame is received as it was pushed, passes all checks, and its payload is what the pops read. -/
theorem frameRoundTripsThroughTheDecoder : Obligations.FrameRoundTripsThroughTheDecoder := by
  intro u f P s hfits hbit hshape
  obtain ⟨v, hframe, hacc, hrun⟩ := run_decResponse_frame (u := u) s hfits hshape
  have hplen := hframe.rxplen hacc
  have hpayload := hframe.readRange_payload
  have hexec := hacc.exec_decParse_normal (by rw [hframe.function]; exact hbit)
  obtain ⟨rs, hrun, hlast⟩ := hrun _ _ hexec rfl
  obtain ⟨t', hdrain⟩ := run_decDrain (s := answer (zextCount (v.rxlen - 4)) (takeNormal v)) (.inl rfl) hplen
  refine ⟨_, rs, t', _, hrun, ?_, rfl, hframe.unit, hframe.function, hplen, hdrain, ?_⟩
  · rw [hlast, ← hplen, ← zextCount_eq_ofNat]
    rfl
  · exact congrArg (fun bytes => _ :: List.map _ bytes) hpayload

/-! ### Exception responses -/

/-- The source's example, byte by byte (R174). -/
theorem frame_example : frame 0x01 0x83 [0x02] = [0x01, 0x83, 0x02, 0xC0, 0xF1] := by decide +kernel

/-- Settles O43: the one payload byte of the frame is the exception code. -/
theorem exceptionResponsesAreReportedRaw : Obligations.ExceptionResponsesAreReportedRaw := by
  refine ⟨fun u f c s hbit hdefault hmax => ?reported, frame_example, rfl⟩
  case reported =>
    have hshape : shape s.params.shape f [c] = true := by
      rw [hdefault]
      exact (defaultShape_exception hbit).mpr rfl
    obtain ⟨v, hframe, hacc, hrun⟩ := run_decResponse_frame (u := u) s (P := [c]) hmax hshape
    have hbit' : exceptionBit (memRead .rxbuf v 1) = true := by rw [hframe.function]; exact hbit
    have hcode : memRead .rxbuf v 2 = c := by
      have hhead := hacc.exception_head hbit'
      rw [hframe.payload] at hhead
      exact (Option.some.inj hhead).symm
    have hrxlen : v.rxlen = 5 := BitVec.eq_of_toNat_eq hframe.rxlen
    obtain ⟨rs, hrun, hlast⟩ := hrun _ _ (hacc.exec_decParse_exception hbit') rfl
    refine ⟨_, rs, hrun, ?_, rfl, rfl, hframe.unit, hframe.function, ?_, hcode, ?_, ?_⟩
    · rw [hlast, hcode]
      rfl
    · show v.rxlen - 4 = 1
      rw [hrxlen]
      rfl
    · show originalFunction (memRead .rxbuf v 1) = _
      rw [hframe.function, originalFunction]
    · rw [ackFlag_iff]
      exact ⟨fun ⟨_, h5⟩ => hcode.symm.trans h5, fun h5 => ⟨rfl, hcode.trans h5⟩⟩

end Sys2Proof.Machine
end

section
/-! PROOFS. The system commands that take no operand (rules R190 to R192), and the state that `SRESET` and `rst` leave (R252). -/

namespace Sys2Proof.Machine

variable {s : State}

/-! ### The meaning of each command -/

theorem exec_nop (s : State) : exec .nop s = .next (answer 0 s) := rfl

theorem exec_sreset (s : State) : exec .sreset s = .next (answer 0 (resetRegisters s)) := rfl

theorem exec_clrerr (s : State) : exec .clrerr s = .next (answer 0 { s with err := 0 }) := rfl

/-- R38 and R191: with its registers reset a state is the reset state, but for the buffers and the model's own fields. -/
theorem resetRegisters_eq : resetRegisters s =
    { State.resetWith s.params with
      txpay := s.txpay, rxbuf := s.rxbuf, hostMoves := s.hostMoves, rsp := s.rsp } := rfl

/-! ### The obligations -/

/-- Settles O13: the answer `OK` writes the response and leaves `ERR` as it is. -/
theorem nopChangesNothing : Obligations.NopChangesNothing :=
  ⟨decode_encode .nop rfl, fun s => by rw [exec_nop, answer_eq]⟩

/-- Settles O14: `ERR` is cleared before the answer `OK`, which leaves it as it is. -/
theorem clrerrClearsErrOnly : Obligations.ClrerrClearsErrOnly :=
  ⟨decode_encode .clrerr rfl, fun s => by rw [exec_clrerr, answer_eq]⟩

/-- Settles O12: both ways reset the registers of the state, and only the command answers. -/
theorem sresetAndRstGiveTheResetState : Obligations.SresetAndRstGiveTheResetState := by
  refine ⟨decode_encode .sreset rfl, fun s => ?sreset, fun s rest h => ?rst⟩
  case sreset => exact (exec_sreset s).trans (congrArg (fun t => Host.Outcome.next (answer 0 t)) resetRegisters_eq)
  case rst => exact (step_of_rst h).trans (congrArg Host.Outcome.next resetByPin_eq)

end Sys2Proof.Machine
end

section
/-! PROOFS. The checksum of a sequence of any length, computed by streaming it through the CRC Engine (rule R210). -/

namespace Sys2Proof.Machine

variable {s : State}

/-! ### The commands of the run -/

theorem exec_crcInit (s : State) : exec .crcInit s = .next (answer 0 { s with crc := 0xFFFF }) := rfl

theorem exec_crcByte (d : Byte) (s : State) :
    exec (.crcByte d) s = .next (answer (crcStep s.crc d) { s with crc := crcStep s.crc d }) := rfl

/-- Every register is read under its own number (R34, R193). -/
theorem exec_rd_number (n : RegName) (s : State) : exec (.rd n.number) s = .next (answer (readRegister s n) s) := by
  show execRd n.number s = _
  rw [execRd, n.ofNumber_number]

/-! ### A run of bytes -/

/-- The answer of byte `k` of a run of `CRC.BYTE` that finds the register at `c`: the running value (R127). -/
def runningAnswer (c : Word) (bs : List Byte) (k : Nat) : Response :=
  { err := 0, data := (bs.take (k + 1)).foldl crcStep c }

/-- One byte ahead of a run: its step is taken first. -/
theorem runningAnswer_cons_succ (c : Word) (d : Byte) (bs : List Byte) (k : Nat) :
    runningAnswer c (d :: bs) (k + 1) = runningAnswer (crcStep c d) bs k := rfl

/-- After `CRC.INIT` the running values are the checksums of the bytes so far (R121, R125). -/
theorem runningAnswer_init (bs : List Byte) (k : Nat) :
    runningAnswer 0xFFFF bs k = { err := 0, data := crc16 (bs.take (k + 1)) } := rfl

/-- The running answers of a run of one byte more. -/
theorem map_runningAnswer_cons (c : Word) (d : Byte) (bs : List Byte) :
    (List.range (d :: bs).length).map (runningAnswer c (d :: bs)) =
      { err := 0, data := crcStep c d } :: (List.range bs.length).map (runningAnswer (crcStep c d) bs) := by
  rw [List.length_cons, List.range_succ_eq_map, List.map_cons, List.map_map]
  exact congrArg (_ :: ·) (List.map_congr_left fun k _ => runningAnswer_cons_succ c d bs k)

/-- A run of `CRC.BYTE` takes its bytes into `CRC` and writes nothing else but the response, by induction on the bytes. -/
theorem run_crcByte (bs : List Byte) (s : State) :
    ∃ r, runInstrs (bs.map .crcByte) s =
      some ({ s with crc := bs.foldl crcStep s.crc, rsp := r }, (List.range bs.length).map (runningAnswer s.crc bs)) := by
  induction bs generalizing s with
  | nil => exact ⟨s.rsp, rfl⟩
  | cons d bs ih =>
    obtain ⟨r, hrun⟩ := ih (answer (crcStep s.crc d) { s with crc := crcStep s.crc d })
    refine ⟨r, ?_⟩
    rw [List.map_cons, runInstrs_cons _ (exec_crcByte d s) rfl, hrun, map_runningAnswer_cons]
    rfl

/-- From any state: `CRC.INIT` forgets the old checksum, so the run leaves the checksum of its own bytes (R125). -/
theorem run_crcInit_crcByte (bs : List Byte) (s : State) :
    ∃ r, runInstrs (.crcInit :: bs.map .crcByte) s =
      some ({ s with crc := crc16 bs, rsp := r },
        { err := 0, data := 0 } :: (List.range bs.length).map (runningAnswer 0xFFFF bs)) := by
  obtain ⟨r, hrun⟩ := run_crcByte bs (answer 0 { s with crc := 0xFFFF })
  refine ⟨r, ?_⟩
  rw [runInstrs_cons _ (exec_crcInit s) rfl, hrun]
  rfl

/-! ### The obligation -/

/-- Settles O23: the bytes leave `crc16` of them in `CRC`, and `RD CRC` reads it there. -/
theorem streamingComputeAnswersCrc16 : Obligations.StreamingComputeAnswersCrc16 := by
  intro bs s
  obtain ⟨r, hrun⟩ := run_crcInit_crcByte bs s
  have hread := exec_rd_number .crc { s with crc := crc16 bs, rsp := r }
  refine ⟨_, runInstrs_append hrun (runInstrs_singleton hread rfl), List.getLast?_concat, fun k hk => ?running⟩
  case running =>
    rw [← runningAnswer_init, List.cons_append, List.getElem?_cons_succ, List.getElem?_append_left (by simpa using hk),
      List.getElem?_map, List.getElem?_range hk, Option.map_some]

end Sys2Proof.Machine
end

section
/-! PROOFS. How a word can fail (rules R220, R221, R227): the code and the state writes of each failing command, and `ERR` (rule R224). -/

namespace Sys2Proof.Machine

variable {s s' t u : State} {i : Instr} {w : Word} {d : Decoded} {e : ErrCode} {r : Response}

/-! ### The ways of failing -/

/-- `Fails s d e u`: in state `s` a word that decodes to `d` may fail with `e`, and `u` is the state it leaves but for `ERR` and the
response. The tables of R221 and R227 in one, with the answer to a reserved word (R99). -/
inductive Fails (s : State) : Decoded → ErrCode → State → Prop
  | reserved (why : ReservedClass) : Fails s (.illegal why) .illegal s
  | rd (n : Byte) : Fails s (.command (.rd n)) .illegal s
  | encBuild : Fails s (.command .encBuild) .encoding (txInvalidate s)
  | encPop : Fails s (.command .encPop) .empty s
  | decPop : Fails s (.command .decPop) .empty s
  | decParseRefused {c : ErrCode} (h : Refused s c) : Fails s (.command .decParse) c (rxInvalidate s)
  | decParseException : Fails s (.command .decParse) .mbexc (takeException s)

/-- The code of a refused sequence is one of two (R165). -/
theorem Refused.checksum_or_malformed (h : Refused s e) : e = .checksum ∨ e = .malformed := by
  cases h with
  | checksum => exact .inl rfl
  | length | shape => exact .inr rfl

theorem Fails.ne_ok (h : Fails s d e u) : e ≠ .ok := by
  cases h with
  | decParseRefused h => rcases h.checksum_or_malformed with rfl | rfl <;> nofun
  | _ => nofun

/-- The outcome is a next state, made by an answer `OK` or by one of the listed failures. -/
def AnswersOrFails (d : Decoded) (s : State) (o : Host.Outcome State Fault Refusal) : Prop :=
  (∃ data u, o = .next (answer data u)) ∨ ∃ e data u, o = .next (raise e data u) ∧ Fails s d e u

theorem answersOrFails_answer (data : Word) (u : State) : AnswersOrFails d s (.next (answer data u)) :=
  .inl ⟨data, u, rfl⟩

theorem Fails.answersOrFails (h : Fails s d e u) (data : Word) : AnswersOrFails d s (.next (raise e data u)) :=
  .inr ⟨e, data, u, rfl, h⟩

theorem answersOrFails_ite {c : Prop} [Decidable c] {o o' : Host.Outcome State Fault Refusal} (h : AnswersOrFails d s o)
    (h' : AnswersOrFails d s o') : AnswersOrFails d s (if c then o else o') := by
  split
  · exact h
  · exact h'

theorem execRd_answersOrFails (n : Byte) : AnswersOrFails (.command (.rd n)) s (execRd n s) := by
  unfold execRd
  split
  · exact answersOrFails_answer _ s
  · exact (Fails.rd n).answersOrFails 0

theorem decParse_answersOrFails (s : State) : AnswersOrFails (.command .decParse) s (exec .decParse s) := by
  rcases refused_or_accepted s with ⟨e, hrefused⟩ | hacc
  · rw [hrefused.exec_decParse]
    exact (Fails.decParseRefused hrefused).answersOrFails 0
  · rw [hacc.exec_decParse]
    exact answersOrFails_ite (Fails.decParseException.answersOrFails _) (answersOrFails_answer _ _)

/-- The commands that can fail first, then those that answer `OK` in every state. -/
theorem exec_answersOrFails (i : Instr) (s : State) : AnswersOrFails (.command i) s (exec i s) := by
  cases i with
  | rd n => exact execRd_answersOrFails n
  | encBuild => exact answersOrFails_ite (Fails.encBuild.answersOrFails 0) (answersOrFails_answer _ _)
  | encPop => exact answersOrFails_ite (answersOrFails_answer _ _) (Fails.encPop.answersOrFails 0)
  | decPop => exact answersOrFails_ite (answersOrFails_answer _ _) (Fails.decPop.answersOrFails 0)
  | decParse => exact decParse_answersOrFails s
  | nop | sreset | clrerr | crcInit | crcVerify | encStart | encRewind | decStart | decRewind =>
    exact answersOrFails_answer _ _
  | crcByte d | encUnit d | encFc d | encPush d | decPush d => exact answersOrFails_answer _ _

theorem execWord_answersOrFails (w : Word) (s : State) : AnswersOrFails (decode w) s (execWord w s) := by
  cases hd : decode w with
  | command i =>
    rw [execWord_of_command hd]
    exact exec_answersOrFails i s
  | illegal why =>
    rw [execWord_of_illegal hd]
    exact (Fails.reserved why).answersOrFails 0

/-- A failure writes its code to `ERR` and answers it (R224, R227). -/
theorem raise_eq (he : e ≠ .ok) (data : Word) (u : State) :
    raise e data u = { u with err := e.code, rsp := some { err := e.code, data := data } } := by
  rw [raise, respond, if_neg he]

/-- The inversion: the answer is `OK`, or it is the code of a listed failure, and `ERR` and the response are all that is added to the
writes of that failure. -/
theorem AnswersOrFails.ok_or_fails (h : AnswersOrFails d s (.next t)) (hrsp : t.rsp = some r) :
    r.err = 0 ∨ ∃ e u, r.err = e.code ∧ Fails s d e u ∧ t = { u with err := r.err, rsp := some r } := by
  rcases h with ⟨data, u, hnext⟩ | ⟨e, data, u, hnext, hfails⟩
  · cases hnext
    cases hrsp
    exact .inl rfl
  · rw [raise_eq hfails.ne_ok] at hnext
    cases hnext
    cases hrsp
    exact .inr ⟨e, u, rfl, hfails, rfl⟩

theorem fails_of_execWord (h : execWord w s = .next t) (hrsp : t.rsp = some r) (hfail : r.err ≠ 0) :
    ∃ e u, r.err = e.code ∧ Fails s (decode w) e u ∧ t = { u with err := r.err, rsp := some r } :=
  ((h ▸ execWord_answersOrFails w s).ok_or_fails hrsp).resolve_left hfail

/-! ### The codes and the writes of a failing command -/

/-- Settles O45: the codes of the listed failures, command by command. -/
theorem eachCommandAnswersItsListedCodes : Obligations.EachCommandAnswersItsListedCodes := by
  refine ⟨fun i s t r h hrsp => ?codes, fun w why s t hd h => ?reserved⟩
  case codes =>
    refine ((h ▸ exec_answersOrFails i s).ok_or_fails hrsp).imp_right ?_
    rintro ⟨e, u, hcode, hfails, -⟩
    rw [hcode]
    cases hfails with
    | encBuild => exact .inl ⟨rfl, rfl⟩
    | encPop => exact .inr (.inl ⟨rfl, rfl⟩)
    | decParseRefused hrefused =>
      rcases hrefused.checksum_or_malformed with rfl | rfl
      · exact .inr (.inr (.inl ⟨rfl, .inl rfl⟩))
      · exact .inr (.inr (.inl ⟨rfl, .inr (.inl rfl)⟩))
    | decParseException => exact .inr (.inr (.inl ⟨rfl, .inr (.inr rfl)⟩))
    | decPop => exact .inr (.inr (.inr (.inl ⟨rfl, rfl⟩)))
    | rd n => exact .inr (.inr (.inr (.inr ⟨n, rfl, rfl⟩)))
  case reserved =>
    cases (execWord_of_illegal hd).symm.trans h
    exact ⟨_, rfl, rfl⟩

/-- Settles O48: one case per listed failure, and the clauses about another word or another code do not apply to it. -/
theorem failingCommandsWriteOnlyTheListedState : Obligations.FailingCommandsWriteOnlyTheListedState := by
  intro w s t r h hrsp hfail
  obtain ⟨e, u, hcode, hfails, ht⟩ := fails_of_execWord h hrsp hfail
  generalize decode w = d at hfails
  rw [ht]
  cases hfails with
  | encBuild => exact ⟨fun _ => rfl, nofun, nofun, fun hbuild => absurd rfl hbuild⟩
  | decParseException =>
    exact ⟨nofun, fun _ _ => rfl, fun _ hother => absurd hcode hother, fun _ hparse => absurd rfl hparse⟩
  | decParseRefused hrefused =>
    exact ⟨nofun, fun _ hmbexc => absurd (hcode.symm.trans hmbexc) hrefused.code_ne_mbexc, fun _ _ => rfl,
      fun _ hparse => absurd rfl hparse⟩
  | reserved | rd | encPop | decPop => exact ⟨nofun, nofun, nofun, fun _ _ => rfl⟩

/-! ### `ERR` is read by `RD STATUS` only -/

/-- The same in everything but `ERR`. -/
def SameButErr (s s' : State) : Prop := { s' with err := s.err } = s

theorem SameButErr.respond (e : ErrCode) (data : Word) (h : SameButErr s s') :
    SameButErr (respond e data s) (respond e data s') := by
  unfold SameButErr at h
  rw [← h]
  rfl

/-- The number of a register is the only one that names it (R34). -/
theorem RegName.number_of_ofNumber {n : RegName} {k : Byte} (h : RegName.ofNumber k = some n) : k = n.number := by
  rcases Nat.lt_or_ge 0x0F k.toNat with hk | hk
  · rw [RegName.ofNumber_eq_none hk] at h
    cases h
  · obtain ⟨m, rfl, hm⟩ := RegName.exists_number hk
    cases hm.symm.trans h
    rfl

/-- Of the sixteen registers only `STATUS` shows `ERR` (R30, R31). -/
theorem execRd_sameButErr {k : Byte} (hk : k ≠ 0x00) (v : BitVec 3) :
    AnswersAlike SameButErr (execRd k s) (execRd k { s with err := v }) := by
  unfold execRd
  cases hn : RegName.ofNumber k with
  | none => exact answersAlike_raise rfl rfl
  | some n =>
    cases n with
    | status => exact absurd (RegName.number_of_ofNumber hn) hk
    | _ => exact answersAlike_answer rfl rfl

/-- The commands with a check of their own first; none of the checks looks at `ERR`. -/
theorem exec_sameButErr (hrd : i ≠ .rd 0x00) (v : BitVec 3) :
    AnswersAlike SameButErr (exec i s) (exec i { s with err := v }) := by
  cases i with
  | rd k => exact execRd_sameButErr (fun hk => hrd (congrArg _ hk)) v
  | encBuild => exact answersAlike_ite Iff.rfl (fun _ => answersAlike_raise rfl rfl) fun _ => answersAlike_answer rfl rfl
  | encPop | decPop =>
    exact answersAlike_ite Iff.rfl (fun _ => answersAlike_answer rfl rfl) fun _ => answersAlike_raise rfl rfl
  | decParse =>
    exact answersAlike_ite Iff.rfl (fun _ => answersAlike_raise rfl rfl) fun _ =>
      answersAlike_ite Iff.rfl (fun _ => answersAlike_raise rfl rfl) fun _ =>
      answersAlike_ite Iff.rfl (fun _ => answersAlike_raise rfl rfl) fun _ =>
      answersAlike_ite Iff.rfl (fun _ => answersAlike_raise rfl rfl) fun _ => answersAlike_answer rfl rfl
  | nop | sreset | clrerr | crcInit | crcByte | crcVerify | encStart | encUnit | encFc | encPush | encRewind | decStart
    | decPush | decRewind => exact answersAlike_answer rfl rfl

theorem execWord_sameButErr (hrd : decode w ≠ .command (.rd 0x00)) (v : BitVec 3) :
    AnswersAlike SameButErr (execWord w s) (execWord w { s with err := v }) := by
  cases hd : decode w with
  | illegal why =>
    rw [execWord_of_illegal hd, execWord_of_illegal hd]
    exact answersAlike_raise rfl rfl
  | command i =>
    rw [execWord_of_command hd, execWord_of_command hd]
    exact exec_sameButErr (fun hi => hrd (hi ▸ hd)) v

/-! ### The write of `ERR` -/

/-- R224: a later success does not clear `ERR`, but for the two clearing commands. -/
theorem execWord_err_kept (h : execWord w s = .next t) (hrsp : t.rsp = some r) (hok : r.err = 0)
    (hclrerr : decode w ≠ .command .clrerr) (hsreset : decode w ≠ .command .sreset) : t.err = s.err := by
  cases hd : decode w with
  | illegal why =>
    cases (execWord_of_illegal hd).symm.trans h
    cases hrsp
    cases hok
  | command i =>
    rw [execWord_of_command hd] at h
    obtain ⟨-, herr, -⟩ := commandsWriteOnlyTheirColumns i s t h
    exact herr (fun hi => hsreset (hi ▸ hd)) (fun hi => hclrerr (hi ▸ hd)) r hrsp hok

/-- R191, R192: the two clearing commands answer `OK` in every state. -/
theorem execWord_clears_err (h : execWord w s = .next t) (hrsp : t.rsp = some r)
    (hclears : decode w = .command .clrerr ∨ decode w = .command .sreset) : r.err = 0 ∧ t.err = 0 := by
  rcases hclears with hd | hd
  · cases ((execWord_of_command hd).trans (exec_clrerr s)).symm.trans h
    cases hrsp
    exact ⟨rfl, rfl⟩
  · cases ((execWord_of_command hd).trans (exec_sreset s)).symm.trans h
    cases hrsp
    exact ⟨rfl, rfl⟩

/-- Settles O46: the write from the listed failures and the table of writes; the rest from two states that differ in `ERR`. -/
theorem errHoldsTheLastFailingCode : Obligations.ErrHoldsTheLastFailingCode := by
  refine ⟨fun w s t r h hrsp => ⟨fun hfail => ?failing, execWord_err_kept h hrsp, execWord_clears_err h hrsp⟩,
    fun w s t v hrd h => ?unread⟩
  case failing =>
    obtain ⟨_, _, _, _, rfl⟩ := fails_of_execWord h hrsp hfail
    rfl
  case unread =>
    have halike := execWord_sameButErr (s := s) hrd v
    rw [h] at halike
    obtain ⟨t', hnext, hsame, _⟩ := halike.next fun e data _ _ => SameButErr.respond e data
    exact ⟨t', hnext, hsame⟩

end Sys2Proof.Machine
end

section
/-! PROOFS. What the commands answer directly after reset (rule R253): no unit id, function code, payload, length or frame has to be set
up before any of them. -/

namespace Sys2Proof.Machine

variable {s t : State} {u f : Byte} {P : List Byte}

/-! ### The first push -/

/-- R24: the first push counts for every `MAX_PAYLOAD`, also where there is no room for its byte. -/
theorem pushedTxplen_of_zero (h : s.txplen = 0) : pushedTxplen s = 1 := by
  have hfits : s.txplen.toNat ≤ maxPayload s := by simp [h]
  rw [pushedTxplen, if_pos hfits, h]
  rfl

theorem pushedRxlen_of_zero (h : s.rxlen = 0) : pushedRxlen s = 1 := by
  have hfits : s.rxlen.toNat ≤ frameMax s := by simp [h]
  rw [pushedRxlen, if_pos hfits, h]
  rfl

theorem exec_encPush_of_zero (d : Byte) (h : s.txplen = 0) :
    ∃ t, exec (.encPush d) s = .next t ∧ t.txplen = 1 ∧ t.rsp = some { err := 0, data := 1 } := by
  have hcount := pushedTxplen_of_zero h
  exact ⟨pushByte d s, exec_encPush d s, hcount, by rw [pushByte, hcount]; rfl⟩

theorem exec_decPush_of_zero (d : Byte) (h : s.rxlen = 0) :
    ∃ t, exec (.decPush d) s = .next t ∧ t.rxlen = 1 ∧ t.rsp = some { err := 0, data := 1 } := by
  have hcount := pushedRxlen_of_zero h
  exact ⟨receiveByte d s, exec_decPush d s, hcount, by rw [receiveByte, hcount]; rfl⟩

/-! ### The frame of what is staged -/

theorem txrd_of_encBuild (h : exec .encBuild s = .next t) (hfits : s.txplen.toNat ≤ maxPayload s) : t.txrd = 0 := by
  cases (exec_encBuild_of_fits hfits).symm.trans h
  rfl

/-- R148, R149: `ENC.BUILD` leaves `TXRD` at the first byte, so the pops after it read the frame without a rewind. -/
theorem Staged.run_encBuild_encPop (h : Staged u f P s) (hfits : P.length ≤ maxPayload s) :
    ∃ t, runInstrs (.encBuild :: List.replicate (P.length + 4) .encPop) s =
      some (t, { err := 0, data := BitVec.ofNat 16 (P.length + 4) } ::
        (frame u f P).map fun b => { err := 0, data := b.setWidth 16 }) := by
  obtain ⟨v, hbuild, hrsp, hvalid, hlen, hbuilt, rfl, rfl, hpayload⟩ := h.exec_encBuild hfits
  have hrd : v.txrd = 0 := txrd_of_encBuild hbuild ((h.payload_of_fits hfits).1.trans_le hfits)
  have hframe : (List.range' 0 (P.length + 4)).map (txframe v) = frame v.txunit v.txfc P := by
    rw [← hlen, ← List.range_eq_range', hbuilt.map_txframe, hpayload]
  obtain ⟨t, hrun⟩ := run_encPop (P.length + 4) hvalid (by simp [hrd, hlen])
  refine ⟨t, ?_⟩
  rw [runInstrs_cons _ hbuild hrsp, hrun, hrd, ← hframe, List.map_map]
  rfl

/-- Reset stages the request with unit id 0, function code 0 and no payload (R38). -/
theorem staged_resetWith (p : Config.Params) : Staged 0 0 [] (State.resetWith p) :=
  ⟨rfl, rfl, pushedSinceZero_nil rfl⟩

theorem frame_zero_zero_nil : frame 0x00 0x00 [] = [0x00, 0x00, 0x01, 0xB0] := by decide +kernel

/-! ### The obligation -/

/-- Settles O17: both lengths are 0, an empty request is staged, and no frame is there, whatever `MAX_PAYLOAD` is. -/
theorem straightAfterResetNothingNeedsSettingUp : Obligations.StraightAfterResetNothingNeedsSettingUp := by
  rintro p _ rfl
  have hrefused : Refused (State.resetWith p) .malformed := .length (.inl (Nat.zero_lt_succ 3))
  obtain ⟨-, -, -, hshort⟩ := crcVerifyAnswersTheCheck
  refine ⟨fun d => exec_crcByte d _, fun d => exec_encPush_of_zero d rfl, fun d => exec_decPush_of_zero d rfl, ?frame,
    exec_encPop_of_empty (.inl rfl), exec_decPop_of_empty (.inl ⟨rfl, rfl⟩), hrefused.exec_decParse,
    hshort _ (Nat.zero_lt_succ 1)⟩
  case frame =>
    obtain ⟨t, hrun⟩ := (staged_resetWith p).run_encBuild_encPop (Nat.zero_le _)
    rw [frame_zero_zero_nil] at hrun
    exact ⟨t, hrun⟩

end Sys2Proof.Machine
end
